-- ==== Sys2Proof/Word.lean ====
section
/-! DEFINITION. The bit vectors and the small fixed sets of values that the rest of the model is written over. -/

namespace Sys2Proof

/-- TimeCore's 5-bit command word `w` (R39): `w[4]` tick, `w[3]` inc_h, `w[2]` dec_h, `w[1]` inc_m, `w[0]` dec_m. -/
abbrev CommandWord := BitVec 5

/-- A 4-bit digit: a BCD digit (R44) or the value a SevenSegmentEncoder reads (R71). -/
abbrev Digit := BitVec 4

/-- A 7-bit segment pattern, bit 0 = segment a … bit 6 = segment g, 1 = lit (R43). -/
abbrev Pattern := BitVec 7

/-- The value a BCDConverter reads, a 7-bit unsigned number (format `BCD7`, R38). -/
abbrev BcdValue := BitVec 7

/-- The adjust delta `d` and the carry `c` of R9: a mathematical integer out of −1, 0, +1, never stored. -/
inductive Delta where
  | minus
  | zero
  | plus
  deriving DecidableEq, Repr

/-- The integer a delta stands for (R9). -/
def Delta.toInt : Delta → Int
  | .minus => -1
  | .zero => 0
  | .plus => 1

end Sys2Proof
end

