-- ==== Sys2Proof/Config.lean ====
section
/-! DEFINITION. The construction parameters of R8, the input ports of R101, and the opaque constants that stand for the
parameters and the input values the spec leaves OPEN (log entries 2, 3). -/

namespace Sys2Proof

/-- One TimeValue (R14): each field typed by its range, so that no field can be out of its modulus. -/
structure TimeValue where
  hours : Fin 24
  minutes : Fin 60
  seconds : Fin 60
  deriving DecidableEq, Repr

/-- A digit source of `SLOT_MAP` (R104): a BCD digit of a TimeValue field, or a constant 4-bit value `CONST(v)`, any of the
sixteen (log entry 26 says how R70 is read beside it). -/
inductive DigitSource where
  | h10
  | h1
  | m10
  | m1
  | s10
  | s1
  | const (v : Digit)
  deriving DecidableEq, Repr, Inhabited

/-- The block's input ports, sampled once per cycle (R101). `editing` and `dpIn` are `N`-bit vectors: bit `k` belongs to
slot `k`, and no bit from `N` up is a wire of the block (log entry 18). -/
structure Inputs where
  tickEn : Bool
  rawIh : Bool
  rawDh : Bool
  rawIm : Bool
  rawDm : Bool
  editing : Nat
  dpIn : Nat
  deriving DecidableEq, Repr, Inhabited

/-- The construction parameters (R7, R8): fixed when the block is constructed. `slots` is `SLOT_MAP` as a list whose
length is `N`; `spareT` and `spareS` say by how much `CW_T` and `CW_S` exceed the bit lengths of their preloads. -/
structure Config where
  pT : Nat
  pS : Nat
  bl : Nat
  bh : Nat
  w : Nat
  slots : List DigitSource
  seed : TimeValue
  spareT : Nat
  spareS : Nat
  deriving DecidableEq, Repr

/-- `N`, the number of digit slots (R8, R73). -/
def Config.n (c : Config) : Nat := c.slots.length

/-- What the construction checks of R109 leave true of a configuration that has a machine: a blink period of at least one
cycle, a debounce width of at least two bits, at least one slot. (A negative preload and a seed out of range cannot be
written down here.) -/
abbrev Config.Valid (c : Config) : Prop := 1 ≤ c.bl + c.bh ∧ 2 ≤ c.w ∧ 1 ≤ c.n

/-- `P_T`: OPEN (R8). -/
opaque Config.tickPreload : Nat

/-- `P_S`: OPEN (R8). -/
opaque Config.scanPreload : Nat

/-- `BL + BH − 1`: the blink period is OPEN but for being at least one cycle (R8, R55). -/
opaque Config.blinkPeriodPred : Nat

/-- A draw that fixes `BL` among 0 … `BL + BH`: OPEN (R8). -/
opaque Config.blinkLowDraw : Nat

/-- `SEED.hours`: supplied externally (R8). -/
opaque Config.seedHours : Fin 24

/-- `SEED.minutes`: supplied externally (R8). -/
opaque Config.seedMinutes : Fin 60

/-- `SEED.seconds`: supplied externally (R8). -/
opaque Config.seedSeconds : Fin 60

/-- `SLOT_MAP` of the 8-slot block: OPEN (R8, R104). -/
opaque Config.slotMap : Fin 8 → DigitSource

/-- `CW_T` less the bit length of `P_T`: OPEN (R8). -/
opaque Config.spareWidthT : Nat

/-- `CW_S` less the bit length of `P_S`: OPEN (R8). -/
opaque Config.spareWidthS : Nat

/-- The input values the environment drives in a cycle that no stimulus fixes: free values, one draw a cycle, with no law
from one cycle to the next (R6, D26; log entry 2). -/
opaque Config.freeInputs : Nat → Inputs

/-- The period `BL + BH` of the block at reset. -/
def Config.blinkPeriod : Nat := Config.blinkPeriodPred + 1

/-- The configuration of the block at `State.reset`: `N` = 8 and `W` = 20 as R8 gives them, everything R8 calls OPEN an
opaque constant (log entry 3). Every pair `BL`, `BH` with `BL + BH ≥ 1` is possible. -/
def Config.block : Config where
  pT := Config.tickPreload
  pS := Config.scanPreload
  bl := Config.blinkLowDraw % (Config.blinkPeriod + 1)
  bh := Config.blinkPeriod - Config.blinkLowDraw % (Config.blinkPeriod + 1)
  w := 20
  slots := [Config.slotMap 0, Config.slotMap 1, Config.slotMap 2, Config.slotMap 3,
    Config.slotMap 4, Config.slotMap 5, Config.slotMap 6, Config.slotMap 7]
  seed := ⟨Config.seedHours, Config.seedMinutes, Config.seedSeconds⟩
  spareT := Config.spareWidthT
  spareS := Config.spareWidthS

end Sys2Proof
end

