-- ==== Sys2Proof/Syntax.lean ====
section
/-! DEFINITION. The component instances of R100, the operation words of R37, and the operations of R41 and R42, one
constructor per row of the opcode table. -/

namespace Sys2Proof

/-- The two TickGenerator instances: `tg_sec` and `mux.tg_scan` (R100). -/
inductive TickGen where
  | sec
  | scan
  deriving DecidableEq, Repr

/-- The four ButtonInput instances `btn_ih`, `btn_dh`, `btn_im`, `btn_dm` (R100), each with its debouncer `deb`. -/
inductive Button where
  | ih
  | dh
  | im
  | dm
  deriving DecidableEq, Repr

/-- The three BCDConverter instances `bcd_h`, `bcd_m`, `bcd_s` (R100). -/
inductive Converter where
  | h
  | m
  | s
  deriving DecidableEq, Repr

/-- Where an operation word is read: a component instance, and with it the word's format (R38). -/
inductive Port where
  | tc
  | tg (g : TickGen)
  | pg
  | deb (b : Button)
  | btn (b : Button)
  | bcd (f : Converter)
  | seg
  | mux
  deriving DecidableEq, Repr

/-- An operation word (R37): the bits one component instance reads in one cycle, as an unsigned number with bit 0 the
least significant (R9). -/
structure OpWord where
  port : Port
  bits : Nat
  deriving DecidableEq, Repr

/-- The operations, one constructor per row of the opcode table (R41, R42). A row whose component has several instances
takes the instance (log entry 8); `raw` and `v` are the rows' data fields. -/
inductive Instr where
  | tick
  | hold
  | incH
  | decH
  | incM
  | decM
  | incHIncM
  | incHDecM
  | decHIncM
  | decHDecM
  | tgDisabled (g : TickGen)
  | tgEnabled (g : TickGen)
  | pgStep
  | debIn0 (b : Button)
  | debIn1 (b : Button)
  | btnStep (b : Button) (raw : Bool)
  | bcdSplit (f : Converter) (v : BcdValue)
  | segEncode0
  | segEncode1
  | segEncode2
  | segEncode3
  | segEncode4
  | segEncode5
  | segEncode6
  | segEncode7
  | segEncode8
  | segEncode9
  | segEncodeA
  | segEncodeB
  | segEncodeC
  | segEncodeD
  | segEncodeE
  | segEncodeF
  | muxHold
  | muxAdvance
  deriving DecidableEq, Repr

end Sys2Proof
end

