-- ==== Sys2Proof/WellFormed.lean ====
section
/-! DEFINITION. When an operation's data field lies in the domain the spec gives it. -/

namespace Sys2Proof

/-- The domain of a BCDConverter: `v` in [0, 99] (R69, R47). -/
def BcdValue.inDomain (v : BcdValue) : Bool := decide (v.toNat ≤ 99)

/-- An operation is well formed when its data field is in its domain; only `BCD_SPLIT` has a domain narrower than its
field (R47). -/
def Instr.wellFormed : Instr → Bool
  | .tick => true
  | .hold => true
  | .incH => true
  | .decH => true
  | .incM => true
  | .decM => true
  | .incHIncM => true
  | .incHDecM => true
  | .decHIncM => true
  | .decHDecM => true
  | .tgDisabled _ => true
  | .tgEnabled _ => true
  | .pgStep => true
  | .debIn0 _ => true
  | .debIn1 _ => true
  | .btnStep _ _ => true
  | .bcdSplit _ v => BcdValue.inDomain v
  | .segEncode0 => true
  | .segEncode1 => true
  | .segEncode2 => true
  | .segEncode3 => true
  | .segEncode4 => true
  | .segEncode5 => true
  | .segEncode6 => true
  | .segEncode7 => true
  | .segEncode8 => true
  | .segEncode9 => true
  | .segEncodeA => true
  | .segEncodeB => true
  | .segEncodeC => true
  | .segEncodeD => true
  | .segEncodeE => true
  | .segEncodeF => true
  | .muxHold => true
  | .muxAdvance => true

end Sys2Proof
end

