-- ==== Sys2Proof/Decode.lean ====
section
/-! DEFINITION. The decoder of operation words (R38 to R42), total on any bits and rejecting by name, the rows of the
opcode map, and the encoder. -/

namespace Sys2Proof

/-- Why a word is no operation of its port. -/
inductive DecodeError where
  /-- A bit at or above the format's width is set: no such wire exists (R38, R48; log entry 12). -/
  | wordTooWide
  /-- A `BCD7` value in [100, 127], outside the converter's domain (R47, R69). -/
  | bcdDomain
  deriving DecidableEq, Repr

/-- The width of the format a port reads (R38). -/
def Port.width : Port → Nat
  | .tc => 5
  | .tg _ => 1
  | .pg => 0
  | .deb _ => 1
  | .btn _ => 1
  | .bcd _ => 7
  | .seg => 4
  | .mux => 1

/-- `hd`, the hours delta of a command word: increment wins over decrement (R40, R85; log entry 10). -/
def hoursDelta (w : CommandWord) : Delta :=
  if w.getLsbD 3 then .plus else if w.getLsbD 2 then .minus else .zero

/-- `md`, the minutes delta of a command word: increment wins over decrement (R40, R85; log entry 10). -/
def minutesDelta (w : CommandWord) : Delta :=
  if w.getLsbD 1 then .plus else if w.getLsbD 0 then .minus else .zero

/-- The operation `ADJ(hd, md)` by its name in R41. -/
def adjustOp : Delta → Delta → Instr
  | .zero, .zero => .hold
  | .plus, .zero => .incH
  | .minus, .zero => .decH
  | .zero, .plus => .incM
  | .zero, .minus => .decM
  | .plus, .plus => .incHIncM
  | .plus, .minus => .incHDecM
  | .minus, .plus => .decHIncM
  | .minus, .minus => .decHDecM

/-- The two-step decoding of a command word (R40): the tick first, then the two deltas. -/
def decodeCommand (w : CommandWord) : Instr :=
  if w.getLsbD 4 then .tick else adjustOp (hoursDelta w) (minutesDelta w)

/-- The `SEG4` rows (R42, R71): one operation for each of the sixteen values of `d`. -/
def decodeSegment (d : Digit) : Instr :=
  match d.toNat with
  | 0 => .segEncode0
  | 1 => .segEncode1
  | 2 => .segEncode2
  | 3 => .segEncode3
  | 4 => .segEncode4
  | 5 => .segEncode5
  | 6 => .segEncode6
  | 7 => .segEncode7
  | 8 => .segEncode8
  | 9 => .segEncode9
  | 10 => .segEncodeA
  | 11 => .segEncodeB
  | 12 => .segEncodeC
  | 13 => .segEncodeD
  | 14 => .segEncodeE
  | _ => .segEncodeF

/-- The decoder: the operation a port's word selects (R40 to R42, R47), or why it selects none. -/
def decode (x : OpWord) : Except DecodeError Instr :=
  if 2 ^ x.port.width ≤ x.bits then .error .wordTooWide
  else match x.port with
    | .tc => .ok (decodeCommand (BitVec.ofNat 5 x.bits))
    | .tg g => .ok (if x.bits.testBit 0 then .tgEnabled g else .tgDisabled g)
    | .pg => .ok .pgStep
    | .deb b => .ok (if x.bits.testBit 0 then .debIn1 b else .debIn0 b)
    | .btn b => .ok (.btnStep b (x.bits.testBit 0))
    | .bcd f =>
      if BcdValue.inDomain (BitVec.ofNat 7 x.bits) then .ok (.bcdSplit f (BitVec.ofNat 7 x.bits))
      else .error .bcdDomain
    | .seg => .ok (decodeSegment (BitVec.ofNat 4 x.bits))
    | .mux => .ok (if x.bits.testBit 0 then .muxAdvance else .muxHold)

/-- A row of TimeCore's opcode map (R41): a word matches it when `w AND mask = match`. -/
structure CommandRow where
  instr : Instr
  value : CommandWord
  mask : CommandWord
  deriving DecidableEq, Repr

/-- A command word matches a row (R41). -/
def CommandRow.matches (r : CommandRow) (w : CommandWord) : Bool := w &&& r.mask == r.value

/-- TimeCore's opcode map as R41 prints it. -/
def commandRows : List CommandRow :=
  [⟨.tick, 0b10000, 0b10000⟩, ⟨.hold, 0b00000, 0b11111⟩, ⟨.incH, 0b01000, 0b11011⟩,
   ⟨.decH, 0b00100, 0b11111⟩, ⟨.incM, 0b00010, 0b11110⟩, ⟨.decM, 0b00001, 0b11111⟩,
   ⟨.incHIncM, 0b01010, 0b11010⟩, ⟨.incHDecM, 0b01001, 0b11011⟩, ⟨.decHIncM, 0b00110, 0b11110⟩,
   ⟨.decHDecM, 0b00101, 0b11111⟩]

/-- The encoder: an operation's port and its word as the opcode map prints it, the bits the map ignores 0 (R41, R42). -/
def encode : Instr → OpWord
  | .tick => ⟨.tc, 0b10000⟩
  | .hold => ⟨.tc, 0b00000⟩
  | .incH => ⟨.tc, 0b01000⟩
  | .decH => ⟨.tc, 0b00100⟩
  | .incM => ⟨.tc, 0b00010⟩
  | .decM => ⟨.tc, 0b00001⟩
  | .incHIncM => ⟨.tc, 0b01010⟩
  | .incHDecM => ⟨.tc, 0b01001⟩
  | .decHIncM => ⟨.tc, 0b00110⟩
  | .decHDecM => ⟨.tc, 0b00101⟩
  | .tgDisabled g => ⟨.tg g, 0⟩
  | .tgEnabled g => ⟨.tg g, 1⟩
  | .pgStep => ⟨.pg, 0⟩
  | .debIn0 b => ⟨.deb b, 0⟩
  | .debIn1 b => ⟨.deb b, 1⟩
  | .btnStep b raw => ⟨.btn b, raw.toNat⟩
  | .bcdSplit f v => ⟨.bcd f, v.toNat⟩
  | .segEncode0 => ⟨.seg, 0x0⟩
  | .segEncode1 => ⟨.seg, 0x1⟩
  | .segEncode2 => ⟨.seg, 0x2⟩
  | .segEncode3 => ⟨.seg, 0x3⟩
  | .segEncode4 => ⟨.seg, 0x4⟩
  | .segEncode5 => ⟨.seg, 0x5⟩
  | .segEncode6 => ⟨.seg, 0x6⟩
  | .segEncode7 => ⟨.seg, 0x7⟩
  | .segEncode8 => ⟨.seg, 0x8⟩
  | .segEncode9 => ⟨.seg, 0x9⟩
  | .segEncodeA => ⟨.seg, 0xA⟩
  | .segEncodeB => ⟨.seg, 0xB⟩
  | .segEncodeC => ⟨.seg, 0xC⟩
  | .segEncodeD => ⟨.seg, 0xD⟩
  | .segEncodeE => ⟨.seg, 0xE⟩
  | .segEncodeF => ⟨.seg, 0xF⟩
  | .muxHold => ⟨.mux, 0⟩
  | .muxAdvance => ⟨.mux, 1⟩

/-- The port instance whose component performs an operation. -/
def Instr.port (i : Instr) : Port := (encode i).port

/-- A command word printed as a row's match value in R41. -/
def isCommandMatch (w : Nat) : Bool := commandRows.any fun r => r.value.toNat == w

/-- The port given to a table word that comes with no port (log entry 7: DESIGN CHOICE). The opcode table numbers the
words of eight formats from 0, each read by its own component, so a bare word of one byte names no component: it goes to
the first row of the table whose match value it is (`TC5`, then `SEG4`), failing that to the narrowest of `TC5` and
`BCD7` that holds it. A width that belongs to one format alone goes to that format; width 1 to the table's first. -/
def tablePort (nbits w : Nat) : Port :=
  match nbits with
  | 0 => .pg
  | 1 => .tg .sec
  | 4 => .seg
  | 5 => .tc
  | 7 => .bcd .h
  | _ => if isCommandMatch w then .tc else if w < 16 then .seg else if w < 32 then .tc else .bcd .h

/-- What the decoder reads from a table word of `nbits` bits, at the port `tablePort` gives it. -/
def decodeTableWord (nbits w : Nat) : Option Instr :=
  match decode ⟨tablePort nbits w, w⟩ with
  | .ok i => some i
  | .error _ => none

end Sys2Proof
end

