-- ==== Sys2Proof/Machine/State.lean ====
section
/-! DEFINITION. The state of the block: the registers of R13, the construction parameters it was built with, and the
model's own fields for ports, outputs and stimulus; the ways a step can stop; the state after reset. -/

namespace Sys2Proof.Machine

/-- The faults of the machine: none. "No runtime exceptions" (R108), and nothing traps (R112), so the type has no
constructor and no step can fault (log entry 25). -/
inductive Fault where
  deriving DecidableEq, Repr

/-- Why a step refuses. -/
inductive Refusal where
  /-- Raised by `exec`'s arm of an operation that has no meaning yet (none is left). Safe: the machine stops. -/
  | notModelled (mnemonic : String)
  /-- Raised by BCD_SPLIT on a value in [100, 127], and by a driven `BCD7` word of that value: the operation has no
  result there (R69, R108, I3). Safe: the machine stops, and the whole block never produces such a value (R70). -/
  | bcdDomain
  /-- Raised by a driven word with a bit set at or above its format's width, which is no word of the format (R38, R48;
  log entry 12). Safe: the machine stops. -/
  | wordTooWide
  /-- Raised by the multiplexer when no slot has the number `mux.idx`, a value the spec calls unrepresentable (R20, I5;
  log entry 13). Safe: the machine stops, in states no run reaches. -/
  | selectOutOfRange
  deriving DecidableEq, Repr

/-- The registers of one ButtonInput: the synchroniser stages, the edge history, and its debouncer's counter `deb.c`
(R18, R19). -/
structure ButtonRegs where
  s1 : Bool
  s2 : Bool
  prev : Bool
  c : Nat
  deriving DecidableEq, Repr

/-- The multiplexer's data input ports in the current cycle (R74): not registers (R21; log entry 5). -/
structure MuxPorts where
  digits : List Digit
  editing : Nat
  dp : Nat
  blink : Bool
  deriving DecidableEq, Repr

/-- The outputs of one ButtonInput: `edge`, and `pressed`, which is its debouncer's `out` (R23, R66). -/
structure ButtonOut where
  edge : Bool
  pressed : Bool
  deriving DecidableEq, Repr

/-- A BCDConverter's result (R44). -/
structure DigitPair where
  tens : Digit
  ones : Digit
  deriving DecidableEq, Repr

/-- The multiplexer's outputs (R74, R75), with the signal `blank` of R23. -/
structure Frame where
  blank : Bool
  selIdx : Nat
  selOnehot : Nat
  seg : Pattern
  dp : Bool
  deriving DecidableEq, Repr

/-- The outputs of each component in the last cycle it performed an operation in (R23, R102). They are not registers and
no operation reads them (log entry 4): they are where an operation's "outputs written" can be seen. -/
structure Outputs where
  secEv : Bool
  scanEv : Bool
  blink : Bool
  ih : ButtonOut
  dh : ButtonOut
  im : ButtonOut
  dm : ButtonOut
  bcdH : DigitPair
  bcdM : DigitPair
  bcdS : DigitPair
  segment : Pattern
  frame : Frame
  deriving DecidableEq, Repr

/-- What the environment drives in one cycle: the operation word of one component used alone (R49 item 1; log entry 6),
or the input ports of the whole block (R49 item 5, R101). -/
inductive Drive where
  | alone (x : OpWord)
  | block (inp : Inputs)
  deriving DecidableEq, Repr

/-- The state. From `tc` to `muxIdx`: the registers of R13. `cfg`: the construction parameters, which no operation writes
(R7; log entry 3). `ports`, `out`, `stim`, `draws`: the model's own (log entries 5, 4, 1, 2). -/
structure State where
  cfg : Config
  tc : TimeValue
  secCnt : Nat
  scanCnt : Nat
  ph : Nat
  btnIh : ButtonRegs
  btnDh : ButtonRegs
  btnIm : ButtonRegs
  btnDm : ButtonRegs
  muxIdx : Nat
  ports : MuxPorts
  out : Outputs
  stim : List Drive
  draws : Nat
  deriving DecidableEq, Repr

/-- A ButtonInput after reset: released, and its debouncer idle (R18, R19, R119). -/
def ButtonRegs.reset : ButtonRegs := ⟨false, false, false, 1⟩

/-- The multiplexer's input ports before the first cycle samples them (log entry 5: DESIGN CHOICE). -/
def MuxPorts.reset (n : Nat) : MuxPorts := ⟨List.replicate n 0, 0, 0, false⟩

/-- The outputs before any operation has written one (log entry 4: DESIGN CHOICE). -/
def Outputs.reset : Outputs where
  secEv := false
  scanEv := false
  blink := false
  ih := ⟨false, false⟩
  dh := ⟨false, false⟩
  im := ⟨false, false⟩
  dm := ⟨false, false⟩
  bcdH := ⟨0, 0⟩
  bcdM := ⟨0, 0⟩
  bcdS := ⟨0, 0⟩
  segment := 0
  frame := ⟨false, 0, 0, 0, false⟩

/-- `S0`, the initial state of a block constructed with a configuration (R119, with the reset values of R13; log
entry 9 for those the spec itself decides). -/
def State.init (cfg : Config) : State where
  cfg := cfg
  tc := cfg.seed
  secCnt := cfg.pT
  scanCnt := cfg.pS
  ph := 0
  btnIh := ButtonRegs.reset
  btnDh := ButtonRegs.reset
  btnIm := ButtonRegs.reset
  btnDm := ButtonRegs.reset
  muxIdx := 0
  ports := MuxPorts.reset cfg.n
  out := Outputs.reset
  stim := []
  draws := 0

/-- The machine right after reset: `S0` of the block this hardware is (R119; log entries 1, 3). -/
def State.reset : State := State.init Config.block

end Sys2Proof.Machine
end

