-- ==== Sys2Proof/Machine/Operands.lean ====
section
/-! DEFINITION. The values the operations are computed from: arithmetic modulo a unit's modulus, the unit step with its
carry, the digits of a number, the digit a slot shows, the segment table, and the packed words. -/

namespace Sys2Proof.Machine

/-- `(v + k) mod m` with the Euclidean remainder of R10, for a field `v` in [0, m − 1]. -/
def addMod {m : Nat} [NeZero m] (v : Fin m) (k : Int) : Fin m :=
  Fin.ofNat m (((v.val : Int) + k) % (m : Int)).toNat

/-- The helper `step(v, d, m)` of R81: a unit's new value and the carry it passes to its parent. -/
def unitStep {m : Nat} [NeZero m] (v : Fin m) (d : Delta) : Fin m × Delta :=
  if d = .plus ∧ v.val = m - 1 then (Fin.ofNat m 0, .plus)
  else if d = .minus ∧ v.val = 0 then (Fin.ofNat m (m - 1), .minus)
  else (addMod v d.toInt, .zero)

/-- `tens := v / 10` (R69). -/
def tensDigit (v : Nat) : Digit := BitVec.ofNat 4 (v / 10)

/-- `ones := v mod 10` (R69). -/
def onesDigit (v : Nat) : Digit := BitVec.ofNat 4 (v % 10)

/-- A BCDConverter's result (R69). -/
def bcdPair (v : Nat) : DigitPair := ⟨tensDigit v, onesDigit v⟩

/-- The TimeValue field a converter is wired to (R103). -/
def fieldOf (f : Converter) (t : TimeValue) : Nat :=
  match f with
  | .h => t.hours.val
  | .m => t.minutes.val
  | .s => t.seconds.val

/-- The digit a source of `SLOT_MAP` gives for a TimeValue (R103, R104): a digit of a converter, in [0, 9]
(R70), or the slot's constant. -/
def sourceDigit (t : TimeValue) : DigitSource → Digit
  | .h10 => (bcdPair (fieldOf .h t)).tens
  | .h1 => (bcdPair (fieldOf .h t)).ones
  | .m10 => (bcdPair (fieldOf .m t)).tens
  | .m1 => (bcdPair (fieldOf .m t)).ones
  | .s10 => (bcdPair (fieldOf .s t)).tens
  | .s1 => (bcdPair (fieldOf .s t)).ones
  | .const v => v

/-- The slot digits `mux.digit[k]`, k from 0 to `N − 1` (R103). -/
def slotDigits (cfg : Config) (t : TimeValue) : List Digit := cfg.slots.map (sourceDigit t)

/-- The segment table `SEG` (R71), each pattern written g … a as the source writes it. -/
def segmentPattern (d : Digit) : Pattern :=
  match d.toNat with
  | 0 => 0b0111111
  | 1 => 0b0000110
  | 2 => 0b1011011
  | 3 => 0b1001111
  | 4 => 0b1100110
  | 5 => 0b1101101
  | 6 => 0b1111101
  | 7 => 0b0000111
  | 8 => 0b1111111
  | 9 => 0b1101111
  | 10 => 0b1110111
  | 11 => 0b1111100
  | 12 => 0b1011000
  | 13 => 0b1011110
  | 14 => 0b1111001
  | _ => 0b1110001

/-- The observation word `TIME` (R45): hours in bits 16:12, minutes in 11:6, seconds in 5:0. -/
def timeWord (t : TimeValue) : BitVec 17 :=
  BitVec.ofNat 5 t.hours.val ++ BitVec.ofNat 6 t.minutes.val ++ BitVec.ofNat 6 t.seconds.val

/-- The 8-bit word of a digit pair, tens in the upper half (R44). -/
def pairWord (p : DigitPair) : BitVec 8 := p.tens ++ p.ones

/-- The bit length of a natural number: 0 has none. -/
def bitLength (k : Nat) : Nat := if k = 0 then 0 else Nat.log2 k + 1

/-- `CW_T`, the width of `tg_sec.cnt`: any width from the bit length of `P_T` up (R8, R16; log entry 17). -/
def secWidth (cfg : Config) : Nat := bitLength cfg.pT + cfg.spareT

/-- `CW_S`, the width of `mux.tg_scan.cnt` (R8, R16). -/
def scanWidth (cfg : Config) : Nat := bitLength cfg.pS + cfg.spareS

end Sys2Proof.Machine
end

