-- ==== Sys2Proof/Machine/Flags.lean ====
section
/-! DEFINITION. The combinational outputs of R23, this block's nearest thing to flags: each a function of the snapshot and
of the cycle's inputs, none of them stored. -/

namespace Sys2Proof.Machine

/-- `ev := en AND (cnt = 0)` (R51; combinational by the spec's own decision, log entry 9). -/
def tickEvent (en : Bool) (cnt : Nat) : Bool := en && cnt == 0

/-- `blink := (ph >= BL)` (R56). -/
def blinkLevel (bl ph : Nat) : Bool := decide (bl ≤ ph)

/-- `out := (c = 0)`, the EdgeDebouncer's output (R60; log entry 9). -/
def pulseOut (c : Nat) : Bool := c == 0

/-- `edge := s2 AND NOT prev` (R66). -/
def risingEdge (r : ButtonRegs) : Bool := r.s2 && !r.prev

/-- The outputs of a ButtonInput (R66). -/
def buttonOut (r : ButtonRegs) : ButtonOut := ⟨risingEdge r, pulseOut r.c⟩

/-- `blank := editing[idx] AND NOT blink` (R75). -/
def slotBlank (p : MuxPorts) (idx : Nat) : Bool := p.editing.testBit idx && !p.blink

/-- The vector with bit `idx` 1 and every other bit 0 (R75). -/
def oneHot (idx : Nat) : Nat := 2 ^ idx

/-- The multiplexer's outputs for the selected slot `idx` whose digit is `d` (R75). -/
def muxFrame (p : MuxPorts) (idx : Nat) (d : Digit) : Frame where
  blank := slotBlank p idx
  selIdx := idx
  selOnehot := oneHot idx
  seg := if slotBlank p idx then 0b0000000 else segmentPattern d
  dp := p.dp.testBit idx && !slotBlank p idx

end Sys2Proof.Machine
end

