-- ==== Sys2Proof/Machine/Ops.lean ====
section
/-! DEFINITION. The named operations over the registers: reading and writing one component's registers and outputs, each
register's next value, and the steps that several operations share. There is no memory (R26) and no exception entry or
return (R112), so there is no operation for either. -/

namespace Sys2Proof.Machine

/-! ### Reading and writing one component -/

/-- The counter of a TickGenerator. -/
def State.tickCount (s : State) : TickGen → Nat
  | .sec => s.secCnt
  | .scan => s.scanCnt

/-- The preload of a TickGenerator: `P_T` or `P_S` (R16). -/
def State.preload (s : State) : TickGen → Nat
  | .sec => s.cfg.pT
  | .scan => s.cfg.pS

/-- Writes a TickGenerator's counter. -/
def State.setTickCount (s : State) (g : TickGen) (cnt : Nat) : State :=
  match g with
  | .sec => { s with secCnt := cnt }
  | .scan => { s with scanCnt := cnt }

/-- Shows a TickGenerator's event. -/
def State.showEvent (s : State) (g : TickGen) (ev : Bool) : State :=
  match g with
  | .sec => { s with out := { s.out with secEv := ev } }
  | .scan => { s with out := { s.out with scanEv := ev } }

/-- The registers of a ButtonInput. -/
def State.button (s : State) : Button → ButtonRegs
  | .ih => s.btnIh
  | .dh => s.btnDh
  | .im => s.btnIm
  | .dm => s.btnDm

/-- Writes a ButtonInput's registers. -/
def State.setButton (s : State) (b : Button) (r : ButtonRegs) : State :=
  match b with
  | .ih => { s with btnIh := r }
  | .dh => { s with btnDh := r }
  | .im => { s with btnIm := r }
  | .dm => { s with btnDm := r }

/-- The outputs last shown for a ButtonInput. -/
def Outputs.button (o : Outputs) : Button → ButtonOut
  | .ih => o.ih
  | .dh => o.dh
  | .im => o.im
  | .dm => o.dm

/-- Shows a ButtonInput's outputs. -/
def State.showButton (s : State) (b : Button) (o : ButtonOut) : State :=
  match b with
  | .ih => { s with out := { s.out with ih := o } }
  | .dh => { s with out := { s.out with dh := o } }
  | .im => { s with out := { s.out with im := o } }
  | .dm => { s with out := { s.out with dm := o } }

/-- Shows a BCDConverter's result. -/
def State.showDigits (s : State) (f : Converter) (p : DigitPair) : State :=
  match f with
  | .h => { s with out := { s.out with bcdH := p } }
  | .m => { s with out := { s.out with bcdM := p } }
  | .s => { s with out := { s.out with bcdS := p } }

/-- The result last shown for a BCDConverter. -/
def Outputs.digits (o : Outputs) : Converter → DigitPair
  | .h => o.bcdH
  | .m => o.bcdM
  | .s => o.bcdS

/-- The event last shown for a TickGenerator. -/
def Outputs.event (o : Outputs) : TickGen → Bool
  | .sec => o.secEv
  | .scan => o.scanEv

/-- Shows a SevenSegmentEncoder's pattern. -/
def State.showSegment (s : State) (p : Pattern) : State := { s with out := { s.out with segment := p } }

/-- Shows the PulseGenerator's output. -/
def State.showBlink (s : State) (v : Bool) : State := { s with out := { s.out with blink := v } }

/-- Shows the multiplexer's outputs. -/
def State.showFrame (s : State) (f : Frame) : State := { s with out := { s.out with frame := f } }

/-- Writes the whole TimeValue at once (R15, R29). -/
def State.setTime (s : State) (t : TimeValue) : State := { s with tc := t }

/-- Writes the PulseGenerator's phase. -/
def State.setPhase (s : State) (ph : Nat) : State := { s with ph := ph }

/-- Writes the multiplexer's select index. -/
def State.setIndex (s : State) (idx : Nat) : State := { s with muxIdx := idx }

/-- Drives the multiplexer's data input ports. -/
def State.setPorts (s : State) (p : MuxPorts) : State := { s with ports := p }

/-! ### Next values -/

/-- A TickGenerator's next counter: reload when disabled or at 0, otherwise count down (R52, R53). -/
def tickNext (preload : Nat) (en : Bool) (cnt : Nat) : Nat :=
  if en then (if cnt = 0 then preload else cnt - 1) else preload

/-- `(ph + 1) mod (BL + BH)` (R57). -/
def phaseNext (bl bh ph : Nat) : Nat := (ph + 1) % (bl + bh)

/-- The EdgeDebouncer's next counter (R61): arm when idle on a true input, go idle after the pulse cycle, otherwise count
modulo 2^`W` and ignore the input. -/
def debounceNext (w c : Nat) (i : Bool) : Nat :=
  if c = 1 then (if i then 2 else 1)
  else if c = 0 then 1
  else (c + 1) % 2 ^ w

/-- A ButtonInput's next registers (R66): every right-hand side reads the snapshot, and the raw line is taken as exact
(log entry 16). -/
def buttonNext (w : Nat) (r : ButtonRegs) (raw : Bool) : ButtonRegs where
  s1 := raw
  s2 := r.s1
  prev := r.s2
  c := debounceNext w r.c (risingEdge r)

/-- `(idx + 1) mod N` (R77). -/
def indexNext (n idx : Nat) : Nat := (idx + 1) % n

/-- The adjust function `ADJ(hd, md)` (R86): the hours take the request and the carry of the minutes step together. -/
def adjustTime (hd md : Delta) (t : TimeValue) : TimeValue where
  hours := addMod t.hours (hd.toInt + (unitStep t.minutes md).2.toInt)
  minutes := (unitStep t.minutes md).1
  seconds := t.seconds

/-- The minutes step of a tick: taken only when the seconds carry (R87). -/
def tickMinutes (t : TimeValue) : Fin 60 × Delta :=
  if (unitStep t.seconds .plus).2 = .plus then unitStep t.minutes .plus else (t.minutes, .zero)

/-- The tick advance (R87). -/
def tickTime (t : TimeValue) : TimeValue where
  hours := addMod t.hours (tickMinutes t).2.toInt
  minutes := (tickMinutes t).1
  seconds := (unitStep t.seconds .plus).1

/-! ### Shared steps -/

/-- A TickGenerator's step with its enable (R51 to R53). -/
def tickStep (g : TickGen) (en : Bool) (s : State) : State :=
  (s.showEvent g (tickEvent en (s.tickCount g))).setTickCount g (tickNext (s.preload g) en (s.tickCount g))

/-- An EdgeDebouncer's step with its input (R60, R61), on the debouncer inside a ButtonInput: the ButtonInput's other
registers and its `edge` stay as they are (log entry 20). -/
def debounceStep (b : Button) (i : Bool) (s : State) : State :=
  (s.showButton b { s.out.button b with pressed := pulseOut (s.button b).c }).setButton b
    { s.button b with c := debounceNext s.cfg.w (s.button b).c i }

/-- A ButtonInput's step with its raw line (R66). -/
def buttonStep (b : Button) (raw : Bool) (s : State) : State :=
  (s.showButton b (buttonOut (s.button b))).setButton b (buttonNext s.cfg.w (s.button b) raw)

/-- A SevenSegmentEncoder's step (R71). -/
def segmentStep (d : Digit) (s : State) : State := s.showSegment (segmentPattern d)

/-- The multiplexer's step (R75 to R77): the outputs for the slot selected now, the step of its own TickGenerator with
its enable tied to 1 (R73), and the next index. It refuses where no slot has the number `mux.idx` (log entry 13); the event
shown is its counter's own (log entry 19). -/
def muxStep (next : Nat) (s : State) : Host.Outcome State Fault Refusal :=
  match s.ports.digits[s.muxIdx]? with
  | none => .refused .selectOutOfRange
  | some d => .next ((tickStep .scan true (s.showFrame (muxFrame s.ports s.muxIdx d))).setIndex next)

end Sys2Proof.Machine
end

