-- ==== Sys2Proof/Machine/Buttons.lean ====
section
/-! DEFINITION. The button family (42_button_input.md): the EdgeDebouncer and the ButtonInput. -/

namespace Sys2Proof.Machine

/-- `DEB_IN0` (R62): the debouncer's step with a false input. -/
def execDebIn0 (b : Button) (s : State) : Host.Outcome State Fault Refusal := .next (debounceStep b false s)

/-- `DEB_IN1` (R63): the debouncer's step with a true input. -/
def execDebIn1 (b : Button) (s : State) : Host.Outcome State Fault Refusal := .next (debounceStep b true s)

/-- `BTN_STEP` (R66): synchroniser, edge detector and debouncer step together. -/
def execBtnStep (b : Button) (raw : Bool) (s : State) : Host.Outcome State Fault Refusal := .next (buttonStep b raw s)

end Sys2Proof.Machine
end

