-- ==== Sys2Proof/Machine/Digits.lean ====
section
/-! DEFINITION. The digit family (43_digits.md): the BCDConverter and the SevenSegmentEncoder. -/

namespace Sys2Proof.Machine

/-- `BCD_SPLIT` (R69): the two decimal digits of a value in [0, 99]; a value in [100, 127] has no result and is refused
(I3; log entry 11). -/
def execBcdSplit (f : Converter) (v : BcdValue) (s : State) : Host.Outcome State Fault Refusal :=
  if BcdValue.inDomain v then .next (s.showDigits f (bcdPair v.toNat)) else .refused .bcdDomain

/-- `SEG_ENCODE_0` (R71): the pattern of digit 0. -/
def execSegEncode0 (s : State) : Host.Outcome State Fault Refusal := .next (segmentStep 0x0 s)

/-- `SEG_ENCODE_1` (R71): the pattern of digit 1. -/
def execSegEncode1 (s : State) : Host.Outcome State Fault Refusal := .next (segmentStep 0x1 s)

/-- `SEG_ENCODE_2` (R71): the pattern of digit 2. -/
def execSegEncode2 (s : State) : Host.Outcome State Fault Refusal := .next (segmentStep 0x2 s)

/-- `SEG_ENCODE_3` (R71): the pattern of digit 3. -/
def execSegEncode3 (s : State) : Host.Outcome State Fault Refusal := .next (segmentStep 0x3 s)

/-- `SEG_ENCODE_4` (R71): the pattern of digit 4. -/
def execSegEncode4 (s : State) : Host.Outcome State Fault Refusal := .next (segmentStep 0x4 s)

/-- `SEG_ENCODE_5` (R71): the pattern of digit 5. -/
def execSegEncode5 (s : State) : Host.Outcome State Fault Refusal := .next (segmentStep 0x5 s)

/-- `SEG_ENCODE_6` (R71): the pattern of digit 6. -/
def execSegEncode6 (s : State) : Host.Outcome State Fault Refusal := .next (segmentStep 0x6 s)

/-- `SEG_ENCODE_7` (R71): the pattern of digit 7. -/
def execSegEncode7 (s : State) : Host.Outcome State Fault Refusal := .next (segmentStep 0x7 s)

/-- `SEG_ENCODE_8` (R71): the pattern of digit 8. -/
def execSegEncode8 (s : State) : Host.Outcome State Fault Refusal := .next (segmentStep 0x8 s)

/-- `SEG_ENCODE_9` (R71): the pattern of digit 9. -/
def execSegEncode9 (s : State) : Host.Outcome State Fault Refusal := .next (segmentStep 0x9 s)

/-- `SEG_ENCODE_A` (R71): the pattern of digit A. -/
def execSegEncodeA (s : State) : Host.Outcome State Fault Refusal := .next (segmentStep 0xA s)

/-- `SEG_ENCODE_B` (R71): the pattern of digit B. -/
def execSegEncodeB (s : State) : Host.Outcome State Fault Refusal := .next (segmentStep 0xB s)

/-- `SEG_ENCODE_C` (R71): the pattern of digit C. -/
def execSegEncodeC (s : State) : Host.Outcome State Fault Refusal := .next (segmentStep 0xC s)

/-- `SEG_ENCODE_D` (R71): the pattern of digit D. -/
def execSegEncodeD (s : State) : Host.Outcome State Fault Refusal := .next (segmentStep 0xD s)

/-- `SEG_ENCODE_E` (R71): the pattern of digit E. -/
def execSegEncodeE (s : State) : Host.Outcome State Fault Refusal := .next (segmentStep 0xE s)

/-- `SEG_ENCODE_F` (R71): the pattern of digit F. -/
def execSegEncodeF (s : State) : Host.Outcome State Fault Refusal := .next (segmentStep 0xF s)

end Sys2Proof.Machine
end

