-- ==== Sys2Proof/Machine/Display.lean ====
section
/-! DEFINITION. The display family (44_display_mux.md): the DisplayMultiplexer. -/

namespace Sys2Proof.Machine

/-- `MUX_HOLD` (R76): the outputs of the selected slot; the index keeps its value. -/
def execMuxHold (s : State) : Host.Outcome State Fault Refusal := muxStep s.muxIdx s

/-- `MUX_ADVANCE` (R77): the outputs of the slot selected now; the index moves on modulo `N`. -/
def execMuxAdvance (s : State) : Host.Outcome State Fault Refusal := muxStep (indexNext s.cfg.n s.muxIdx) s

end Sys2Proof.Machine
end

