-- ==== Sys2Proof/Machine/TimeCore.lean ====
section
/-! DEFINITION. The TimeCore family (45_timecore.md): the ten operations of the command word. -/

namespace Sys2Proof.Machine

/-- `TICK` (R87): the seconds advance, with its two-level carry; the requests of the word have no effect (R84). -/
def execTick (s : State) : Host.Outcome State Fault Refusal := .next (s.setTime (tickTime s.tc))

/-- `HOLD` (R88): `ADJ(0, 0)`. -/
def execHold (s : State) : Host.Outcome State Fault Refusal := .next (s.setTime (adjustTime .zero .zero s.tc))

/-- `INC_H` (R89): `ADJ(+1, 0)`. -/
def execIncH (s : State) : Host.Outcome State Fault Refusal := .next (s.setTime (adjustTime .plus .zero s.tc))

/-- `DEC_H` (R90): `ADJ(−1, 0)`. -/
def execDecH (s : State) : Host.Outcome State Fault Refusal := .next (s.setTime (adjustTime .minus .zero s.tc))

/-- `INC_M` (R91): `ADJ(0, +1)`. -/
def execIncM (s : State) : Host.Outcome State Fault Refusal := .next (s.setTime (adjustTime .zero .plus s.tc))

/-- `DEC_M` (R92): `ADJ(0, −1)`. -/
def execDecM (s : State) : Host.Outcome State Fault Refusal := .next (s.setTime (adjustTime .zero .minus s.tc))

/-- `INC_H_INC_M` (R93): `ADJ(+1, +1)`. -/
def execIncHIncM (s : State) : Host.Outcome State Fault Refusal := .next (s.setTime (adjustTime .plus .plus s.tc))

/-- `INC_H_DEC_M` (R94): `ADJ(+1, −1)`. -/
def execIncHDecM (s : State) : Host.Outcome State Fault Refusal := .next (s.setTime (adjustTime .plus .minus s.tc))

/-- `DEC_H_INC_M` (R95): `ADJ(−1, +1)`. -/
def execDecHIncM (s : State) : Host.Outcome State Fault Refusal := .next (s.setTime (adjustTime .minus .plus s.tc))

/-- `DEC_H_DEC_M` (R96): `ADJ(−1, −1)`. -/
def execDecHDecM (s : State) : Host.Outcome State Fault Refusal := .next (s.setTime (adjustTime .minus .minus s.tc))

end Sys2Proof.Machine
end

