-- ==== Sys2Proof/Machine/Timebase.lean ====
section
/-! DEFINITION. The timebase family (41_timebase.md): the TickGenerator and the PulseGenerator. -/

namespace Sys2Proof.Machine

/-- `TG_DISABLED` (R52): no event, and the counter reloads whatever its value was. -/
def execTgDisabled (g : TickGen) (s : State) : Host.Outcome State Fault Refusal := .next (tickStep g false s)

/-- `TG_ENABLED` (R53): the event exactly at 0, where the counter reloads; otherwise it counts down. -/
def execTgEnabled (g : TickGen) (s : State) : Host.Outcome State Fault Refusal := .next (tickStep g true s)

/-- `PG_STEP` (R56, R57): the blink level of the current phase, and the next phase. -/
def execPgStep (s : State) : Host.Outcome State Fault Refusal :=
  .next ((s.showBlink (blinkLevel s.cfg.bl s.ph)).setPhase (phaseNext s.cfg.bl s.cfg.bh s.ph))

end Sys2Proof.Machine
end

