-- ==== Sys2Proof/Machine/Dispatch.lean ====
section
/-! DEFINITION. The dispatch: one arm per operation, each one direct call of its meaning. -/

namespace Sys2Proof.Machine

/-- The meaning of an operation on its component, in one cycle. -/
def exec (i : Instr) (s : State) : Host.Outcome State Fault Refusal :=
  match i with
  | .tick => Sys2Proof.Machine.execTick s
  | .hold => Sys2Proof.Machine.execHold s
  | .incH => Sys2Proof.Machine.execIncH s
  | .decH => Sys2Proof.Machine.execDecH s
  | .incM => Sys2Proof.Machine.execIncM s
  | .decM => Sys2Proof.Machine.execDecM s
  | .incHIncM => Sys2Proof.Machine.execIncHIncM s
  | .incHDecM => Sys2Proof.Machine.execIncHDecM s
  | .decHIncM => Sys2Proof.Machine.execDecHIncM s
  | .decHDecM => Sys2Proof.Machine.execDecHDecM s
  | .tgDisabled g => Sys2Proof.Machine.execTgDisabled g s
  | .tgEnabled g => Sys2Proof.Machine.execTgEnabled g s
  | .pgStep => Sys2Proof.Machine.execPgStep s
  | .debIn0 b => Sys2Proof.Machine.execDebIn0 b s
  | .debIn1 b => Sys2Proof.Machine.execDebIn1 b s
  | .btnStep b raw => Sys2Proof.Machine.execBtnStep b raw s
  | .bcdSplit f v => Sys2Proof.Machine.execBcdSplit f v s
  | .segEncode0 => Sys2Proof.Machine.execSegEncode0 s
  | .segEncode1 => Sys2Proof.Machine.execSegEncode1 s
  | .segEncode2 => Sys2Proof.Machine.execSegEncode2 s
  | .segEncode3 => Sys2Proof.Machine.execSegEncode3 s
  | .segEncode4 => Sys2Proof.Machine.execSegEncode4 s
  | .segEncode5 => Sys2Proof.Machine.execSegEncode5 s
  | .segEncode6 => Sys2Proof.Machine.execSegEncode6 s
  | .segEncode7 => Sys2Proof.Machine.execSegEncode7 s
  | .segEncode8 => Sys2Proof.Machine.execSegEncode8 s
  | .segEncode9 => Sys2Proof.Machine.execSegEncode9 s
  | .segEncodeA => Sys2Proof.Machine.execSegEncodeA s
  | .segEncodeB => Sys2Proof.Machine.execSegEncodeB s
  | .segEncodeC => Sys2Proof.Machine.execSegEncodeC s
  | .segEncodeD => Sys2Proof.Machine.execSegEncodeD s
  | .segEncodeE => Sys2Proof.Machine.execSegEncodeE s
  | .segEncodeF => Sys2Proof.Machine.execSegEncodeF s
  | .muxHold => Sys2Proof.Machine.execMuxHold s
  | .muxAdvance => Sys2Proof.Machine.execMuxAdvance s

end Sys2Proof.Machine
end

