-- ==== Sys2Proof/Machine/Block.lean ====
section
/-! DEFINITION. The whole block for one cycle (46_top_level.md): the words and ports each component reads, formed from the
snapshot and the sampled inputs, and the components' operations run on them. -/

namespace Sys2Proof.Machine

/-- The raw line of a button among the block's inputs (R103). -/
def rawOf (inp : Inputs) : Button → Bool
  | .ih => inp.rawIh
  | .dh => inp.rawDh
  | .im => inp.rawIm
  | .dm => inp.rawDm

/-- The command word of the cycle, `{ev, ih, dh, im, dm}` (R103). -/
def commandOf (inp : Inputs) (s : State) : CommandWord :=
  BitVec.ofBool (tickEvent inp.tickEn s.secCnt) ++ BitVec.ofBool (pulseOut s.btnIh.c) ++
    BitVec.ofBool (pulseOut s.btnDh.c) ++ BitVec.ofBool (pulseOut s.btnIm.c) ++ BitVec.ofBool (pulseOut s.btnDm.c)

/-- The multiplexer's data inputs in the cycle (R103). -/
def portsOf (inp : Inputs) (s : State) : MuxPorts where
  digits := slotDigits s.cfg s.tc
  editing := inp.editing
  dp := inp.dpIn
  blink := blinkLevel s.cfg.bl s.ph

/-- The word of the multiplexer's encoder: the digit of the selected slot (R75), above 9 only where the slot's source
is such a constant (log entry 26). Where no slot is selected there is no word, and the multiplexer's own operation
refuses. -/
def encoderWords (s : State) : List OpWord :=
  match (slotDigits s.cfg s.tc)[s.muxIdx]? with
  | none => []
  | some d => [⟨.seg, d.toNat⟩]

/-- The operation words of one cycle (R37, R103, R105), all of the snapshot `s`. The debouncers step inside their
ButtonInputs (R66) and `mux.tg_scan` inside the multiplexer (R76, R77), so they have no word of their own here. -/
def cycleWords (inp : Inputs) (s : State) : List OpWord :=
  [⟨.tc, (commandOf inp s).toNat⟩, ⟨.tg .sec, inp.tickEn.toNat⟩, ⟨.pg, 0⟩,
   ⟨.btn .ih, inp.rawIh.toNat⟩, ⟨.btn .dh, inp.rawDh.toNat⟩, ⟨.btn .im, inp.rawIm.toNat⟩, ⟨.btn .dm, inp.rawDm.toNat⟩,
   ⟨.bcd .h, s.tc.hours.val⟩, ⟨.bcd .m, s.tc.minutes.val⟩, ⟨.bcd .s, s.tc.seconds.val⟩] ++
  encoderWords s ++ [⟨.mux, (tickEvent true s.scanCnt).toNat⟩]

/-- The refusal a word that decodes to no operation ends in. -/
def refusalOf : DecodeError → Refusal
  | .wordTooWide => .wordTooWide
  | .bcdDomain => .bcdDomain

/-- Decodes one operation word and performs its operation. -/
def runWord (x : OpWord) (s : State) : Host.Outcome State Fault Refusal :=
  match decode x with
  | .ok i => exec i s
  | .error e => .refused (refusalOf e)

/-- Goes on with the next state, and stops where there is none. -/
def andThen (o : Host.Outcome State Fault Refusal) (f : State → Host.Outcome State Fault Refusal) :
    Host.Outcome State Fault Refusal :=
  match o with
  | .next s => f s
  | .fault r => .fault r
  | .refused r => .refused r

/-- Performs the operations of a list of words, one after the other. -/
def runWords : List OpWord → State → Host.Outcome State Fault Refusal
  | [], s => .next s
  | x :: xs, s => andThen (runWord x s) (runWords xs)

/-- One cycle of the block (R31, R105): sample the ports, form every word from the snapshot, perform every component's
operation. Each operation reads its own registers, its word, `ports` and `cfg` only, so running them one after the other
is the common commit of R31 (log entry 24). -/
def blockCycle (inp : Inputs) (s : State) : Host.Outcome State Fault Refusal :=
  runWords (cycleWords inp s) (s.setPorts (portsOf inp s))

/-- What the environment drives in the coming cycle, and the state without it (R6, R37): the next entry of the stimulus,
or, where none is lined up, a free draw of the block's inputs (log entries 1, 2). -/
def fetch (s : State) : Drive × State :=
  match s.stim with
  | d :: rest => (d, { s with stim := rest })
  | [] => (.block (Config.freeInputs s.draws), { s with draws := s.draws + 1 })

/-- One cycle under what the environment drives: the operation of one component used alone, every other component still
(log entry 6), or a cycle of the whole block. -/
def runDrive (d : Drive) (s : State) : Host.Outcome State Fault Refusal :=
  match d with
  | .alone x => runWord x s
  | .block inp => blockCycle inp s

end Sys2Proof.Machine
end

