-- ==== Sys2Proof/Machine/Step.lean ====
section
/-! DEFINITION. One step of the machine: one reference-clock cycle (R5, R22). -/

namespace Sys2Proof.Machine

/-- One cycle. -/
def step (s : State) : Host.Outcome State Fault Refusal := runDrive (fetch s).1 (fetch s).2

/-- The state whose next step runs the table word `w` of `nbits` bits: the word is lined up as the first entry of the
stimulus, at the port `tablePort` gives it (log entries 1, 7). -/
def State.withFetchWord (s : State) (nbits w : Nat) : State :=
  { s with stim := .alone ⟨tablePort nbits w, w⟩ :: s.stim }

end Sys2Proof.Machine
end

