-- ==== Sys2Proof/Machine/Construct.lean ====
section
/-! DEFINITION. Construction and restart (R109, R119, R121): the configuration a caller asks for, the checks it must pass,
and the block it gives. Neither is a step: they happen outside a run (log entry 21). -/

namespace Sys2Proof.Machine

/-- The time-advance policy asked for (R97): the atomic one, or the sequential FSM the source mentions without its
transition table. -/
inductive AdvancePolicy where
  | atomic
  | sequential
  deriving DecidableEq, Repr

/-- Why a configuration is refused: the six codes of R109, and the policy the model has no machine for (R97, I2; log
entry 14). No machine exists then, so these are no reasons for a step to stop. Safe. -/
inductive ConfigError where
  /-- round(`TICK_PERIOD` × `F_CLK`) − 1 < 0 for `tg_sec`. -/
  | tickPreload
  /-- The computed preload of `mux.tg_scan` is negative. -/
  | scanPreload
  /-- `N = 0`. -/
  | digitsZero
  /-- `BL + BH = 0`. -/
  | blinkPeriod
  /-- `W < 2`. -/
  | debounceWidth
  /-- A field of `SEED` is out of its range. -/
  | seedRange
  /-- The sequential time-advance policy is asked for. -/
  | advancePolicy
  deriving DecidableEq, Repr

/-- A configuration as asked for, before any check. `tickCycles` and `scanCycles` are round(period × rate) of the two
TickGenerators, computed outside the model (R8, R50; log entry 22); `slots` is `SLOT_MAP`, `N` entries long. -/
structure ConfigRequest where
  tickCycles : Nat
  scanCycles : Nat
  bl : Nat
  bh : Nat
  w : Nat
  slots : List DigitSource
  seedHours : Nat
  seedMinutes : Nat
  seedSeconds : Nat
  spareT : Nat
  spareS : Nat
  policy : AdvancePolicy
  deriving DecidableEq, Repr

/-- Preload = round(period × rate) − 1, an integer (R50). -/
def preloadOf (cycles : Nat) : Int := (cycles : Int) - 1

/-- The checks of R109 with their codes, in its table's order, and the policy check of R97 last: the errors of the checks
that fail. -/
def configErrors (r : ConfigRequest) : List ConfigError :=
  (if preloadOf r.tickCycles < 0 then [.tickPreload] else []) ++
  (if preloadOf r.scanCycles < 0 then [.scanPreload] else []) ++
  (if r.slots.length = 0 then [.digitsZero] else []) ++
  (if r.bl + r.bh = 0 then [.blinkPeriod] else []) ++
  (if r.w < 2 then [.debounceWidth] else []) ++
  (if 23 < r.seedHours ∨ 59 < r.seedMinutes ∨ 59 < r.seedSeconds then [.seedRange] else []) ++
  (if r.policy = .sequential then [.advancePolicy] else [])

/-- The configuration a request that passes every check stands for. -/
def configOf (r : ConfigRequest) : Config where
  pT := (preloadOf r.tickCycles).toNat
  pS := (preloadOf r.scanCycles).toNat
  bl := r.bl
  bh := r.bh
  w := r.w
  slots := r.slots
  seed := ⟨Fin.ofNat 24 r.seedHours, Fin.ofNat 60 r.seedMinutes, Fin.ofNat 60 r.seedSeconds⟩
  spareT := r.spareT
  spareS := r.spareS

/-- Construction (R109, R119): the initial state, or the first check that fails, in which case no machine exists. R109
leaves open which failing check is reported (log entry 15). -/
def construct (r : ConfigRequest) : Except ConfigError State :=
  match configErrors r with
  | [] => .ok (State.init (configOf r))
  | e :: _ => .error e

/-- A restart in the middle of a run: a new construction with the block's parameters and a fresh `SEED` (R119). The
environment is no part of the construction: what it has lined up stays, and its free inputs go on from the draw the run
had reached, since the spec gives no relation between the inputs after a restart and those before it (R6, D26; log
entry 27: DESIGN CHOICE). -/
def restart (s : State) (seed : TimeValue) : State :=
  { State.init { s.cfg with seed := seed } with stim := s.stim, draws := s.draws }

end Sys2Proof.Machine
end

