-- ==== Sys2Proof/Machine/Stimulus.lean ====
section
/-! DEFINITION. The stimulus notation of R49 as data: the lines of a program, and the stimulus they stand for. The text
itself is not parsed (log entry 23). -/

namespace Sys2Proof.Machine

/-- Lines up a stimulus in front of what the environment has lined up already. -/
def State.lineUp (s : State) (ds : List Drive) : State := { s with stim := ds ++ s.stim }

/-- A cycle line of a TimeCore program: its 5-bit word (R49 item 1). -/
def commandLine (w : CommandWord) : Drive := .alone ⟨.tc, w.toNat⟩

/-- A cycle line that holds a mnemonic of the opcode map (R49 item 1). -/
def mnemonicLine (i : Instr) : Drive := .alone (encode i)

/-- `WAIT n`: `n` lines of `HOLD` (R49 item 2). -/
def waitLines (n : Nat) : List Drive := List.replicate n (mnemonicLine .hold)

/-- `TICKS n`: `n` lines of `TICK` (R49 item 3). -/
def tickLines (n : Nat) : List Drive := List.replicate n (mnemonicLine .tick)

/-- Mnemonics joined by `+`: the word with every one's bits set (R49 item 4). -/
def joinedLine (is : List Instr) : Drive :=
  commandLine (is.foldl (fun w i => w ||| BitVec.ofNat 5 (encode i).bits) 0)

/-- A line of a top-level program, `c<t>: en=… raw=… edit=… dp=…` (R49 item 5); a field left out is `none`. -/
structure TopLine where
  cycle : Nat
  en : Option Bool
  raw : Option (Bool × Bool × Bool × Bool)
  edit : Option Nat
  dp : Option Nat
  deriving DecidableEq, Repr

/-- The inputs before the first line: every field 0 but `en`, which starts at 1 (R49 item 5). -/
def startInputs : Inputs := ⟨true, false, false, false, false, 0, 0⟩

/-- The inputs after a line: a field left out keeps its previous value (R49 item 5). -/
def applyLine (prev : Inputs) (l : TopLine) : Inputs where
  tickEn := l.en.getD prev.tickEn
  rawIh := (l.raw.map fun r => r.1).getD prev.rawIh
  rawDh := (l.raw.map fun r => r.2.1).getD prev.rawDh
  rawIm := (l.raw.map fun r => r.2.2.1).getD prev.rawIm
  rawDm := (l.raw.map fun r => r.2.2.2).getD prev.rawDm
  editing := l.edit.getD prev.editing
  dpIn := l.dp.getD prev.dpIn

/-- The inputs of `count` cycles from cycle `t` on, under the lines of a top-level program (R49 item 5). -/
def expandLines (lines : List TopLine) : Nat → Nat → Inputs → List Inputs
  | 0, _, _ => []
  | count + 1, t, prev =>
    (lines.filter fun l => l.cycle == t).foldl applyLine prev ::
      expandLines lines count (t + 1) ((lines.filter fun l => l.cycle == t).foldl applyLine prev)

/-- The first `count` cycles of a top-level program as a stimulus. -/
def topProgram (lines : List TopLine) (count : Nat) : List Drive :=
  (expandLines lines count 0 startInputs).map .block

end Sys2Proof.Machine
end

