-- ==== Sys2Proof/Safety.lean ====
section
/-! DEFINITION. The terms the claims are stated in: the invariant of the block, which component an operation belongs to and
what it leaves alone, runs of operations and of cycles, and the source's own wording of `Advance`. -/

namespace Sys2Proof.Machine

/-- What holds in every reachable state: a configuration that construction accepts (R109), every register in its range
(R13, R16, R17, R19, R20; the TimeValue's ranges, R14, are its type's), and one digit port for each slot (R74). -/
abbrev State.Inv (s : State) : Prop :=
  s.cfg.Valid ∧ s.secCnt ≤ s.cfg.pT ∧ s.scanCnt ≤ s.cfg.pS ∧ s.ph < s.cfg.bl + s.cfg.bh ∧
  s.btnIh.c < 2 ^ s.cfg.w ∧ s.btnDh.c < 2 ^ s.cfg.w ∧ s.btnIm.c < 2 ^ s.cfg.w ∧ s.btnDm.c < 2 ^ s.cfg.w ∧
  s.muxIdx < s.cfg.n ∧ s.ports.digits.length = s.cfg.n

/-- What the environment drives is a word that some operation has, or a cycle of the block (R47: only a `BCD7` value of
100 or more is none). -/
def Drive.sound : Drive → Bool
  | .alone x =>
    match decode x with
    | .ok _ => true
    | .error _ => false
  | .block _ => true

/-! ### Components and frames -/

/-- The parts of the block that own registers or outputs. The scan TickGenerator belongs to the display, a debouncer to
its button (R100). -/
inductive Component where
  | timeCore
  | seconds
  | pulse
  | button (b : Button)
  | converter (f : Converter)
  | encoder
  | display
  deriving DecidableEq, Repr

/-- The component a port belongs to. -/
def componentOf : Port → Component
  | .tc => .timeCore
  | .tg .sec => .seconds
  | .tg .scan => .display
  | .pg => .pulse
  | .deb b => .button b
  | .btn b => .button b
  | .bcd f => .converter f
  | .seg => .encoder
  | .mux => .display

/-- A component's registers and outputs are the same in two states. -/
def sameComponent (s t : State) : Component → Prop
  | .timeCore => t.tc = s.tc
  | .seconds => t.secCnt = s.secCnt ∧ t.out.secEv = s.out.secEv
  | .pulse => t.ph = s.ph ∧ t.out.blink = s.out.blink
  | .button b => t.button b = s.button b ∧ t.out.button b = s.out.button b
  | .converter f => t.out.digits f = s.out.digits f
  | .encoder => t.out.segment = s.out.segment
  | .display =>
    t.muxIdx = s.muxIdx ∧ t.scanCnt = s.scanCnt ∧ t.out.scanEv = s.out.scanEv ∧ t.out.frame = s.out.frame

/-- Nothing but one component's registers and outputs differs: every other component, the parameters, the sampled ports,
the stimulus and the draw counter are as before. -/
def OnlyChanges (c : Component) (s t : State) : Prop :=
  (∀ d, d ≠ c → sameComponent s t d) ∧ t.cfg = s.cfg ∧ t.ports = s.ports ∧ t.stim = s.stim ∧ t.draws = s.draws

/-! ### Runs -/

/-- Performs a list of operations, one after the other. -/
def performAll : List Instr → State → Host.Outcome State Fault Refusal
  | [], s => .next s
  | i :: is, s => andThen (exec i s) (performAll is)

/-- As many steps of the machine as there are input vectors, one vector driven in each (R37, R101). -/
def runBlock (ins : List Inputs) (s : State) : Host.Outcome State Fault Refusal :=
  Sys2Proof.core.run ins.length (s.lineUp (ins.map .block))

/-- A button's raw line as it was `d` cycles before the last of the cycles `ins`, 0 before the first (R67). -/
def rawBefore (ins : List Inputs) (b : Button) (d : Nat) : Bool :=
  match ins.reverse[d]? with
  | some inp => rawOf inp b
  | none => false

/-- The debouncer operation of an input value (R62, R63). -/
def debounceOp (b : Button) (i : Bool) : Instr := if i then .debIn1 b else .debIn0 b

/-! ### Digits -/

/-- A digit source that gives decimal digits only: a time digit, or a constant in [0, 9] (R70, R104; log entry 26). -/
def sourceDecimal : DigitSource → Bool
  | .h10 => true
  | .h1 => true
  | .m10 => true
  | .m1 => true
  | .s10 => true
  | .s1 => true
  | .const v => decide (v.toNat ≤ 9)

/-- Every slot of `SLOT_MAP` has a source that gives decimal digits only. -/
def mapDecimal (cfg : Config) : Bool := cfg.slots.all sourceDecimal

/-! ### Time -/

/-- The seconds since midnight of a TimeValue (R99). -/
def secondsOfDay (t : TimeValue) : Nat := 3600 * t.hours.val + 60 * t.minutes.val + t.seconds.val

/-- `Advance(hours, ±1)` in the source's words (R81): hours have no parent. -/
def advanceHours (up : Bool) (t : TimeValue) : TimeValue :=
  if up then (if t.hours = 23 then { t with hours := 0 } else { t with hours := t.hours + 1 })
  else (if t.hours = 0 then { t with hours := 23 } else { t with hours := t.hours - 1 })

/-- `Advance(minutes, ±1)` in the source's words (R81): a rollover advances the hours. -/
def advanceMinutes (up : Bool) (t : TimeValue) : TimeValue :=
  if up then (if t.minutes = 59 then advanceHours true { t with minutes := 0 } else { t with minutes := t.minutes + 1 })
  else (if t.minutes = 0 then advanceHours false { t with minutes := 59 } else { t with minutes := t.minutes - 1 })

/-- `Advance(seconds, +1)` in the source's words (R81): a rollover advances the minutes. -/
def advanceSeconds (t : TimeValue) : TimeValue :=
  if t.seconds = 59 then advanceMinutes true { t with seconds := 0 } else { t with seconds := t.seconds + 1 }

/-- An hours request applied by `Advance`, or no request (R86). -/
def requestHours (hd : Delta) (t : TimeValue) : TimeValue :=
  match hd with
  | .plus => advanceHours true t
  | .minus => advanceHours false t
  | .zero => t

/-- A minutes request applied by `Advance`, or no request (R86). -/
def requestMinutes (md : Delta) (t : TimeValue) : TimeValue :=
  match md with
  | .plus => advanceMinutes true t
  | .minus => advanceMinutes false t
  | .zero => t

/-- The hours request the buttons make in a state: increment wins (R85, R103). -/
def hoursRequest (s : State) : Delta :=
  if s.btnIh.c = 0 then .plus else if s.btnDh.c = 0 then .minus else .zero

/-- The minutes request the buttons make in a state: increment wins (R85, R103). -/
def minutesRequest (s : State) : Delta :=
  if s.btnIm.c = 0 then .plus else if s.btnDm.c = 0 then .minus else .zero

end Sys2Proof.Machine
end

