-- ==== Sys2Proof/Certificates/Slice0/Obligations.lean ====
section
/-! DEFINITION. The statements about the machine, each from the numbered rules of the spec its docstring names. -/

open Sys2Proof Sys2Proof.Machine

/-! ### Operation words -/

/-- Decode and encode agree (R41, R42): every well-formed operation of every family, on every instance and with every
value of its data field, decodes from its own word. -/
def Obligations.EncodedOperationsDecodeToThemselves : Prop :=
  ∀ i : Instr, i.wellFormed = true → decode (encode i) = .ok i

/-- The other direction (R41, R42): an operation that is decoded is well formed, belongs to the port that read the word,
and its own word is the word read, or, for a command word, the match value of a row of the opcode map that the word read
matches. -/
def Obligations.DecodedOperationsMatchTheWordRead : Prop :=
  ∀ (x : OpWord) (i : Instr), decode x = .ok i →
    i.wellFormed = true ∧ i.port = x.port ∧
      (x.port ≠ .tc → encode i = x) ∧
      (x.port = .tc → ∃ r ∈ commandRows,
        r.instr = i ∧ BitVec.ofNat 5 x.bits &&& r.mask = r.value ∧ (encode i).bits = r.value.toNat)

/-- R40: the tick first, then the two deltas with increment winning, and `ADJ(hd, md)` by its name. -/
def Obligations.CommandWordsDecodeInTwoSteps : Prop :=
  ∀ w : CommandWord,
    decode ⟨.tc, w.toNat⟩ = .ok
      (if w.getLsbD 4 then .tick
       else
         match (if w.getLsbD 3 then Delta.plus else if w.getLsbD 2 then .minus else .zero),
           (if w.getLsbD 1 then Delta.plus else if w.getLsbD 0 then .minus else .zero) with
         | .zero, .zero => .hold
         | .plus, .zero => .incH
         | .minus, .zero => .decH
         | .zero, .plus => .incM
         | .zero, .minus => .decM
         | .plus, .plus => .incHIncM
         | .plus, .minus => .incHDecM
         | .minus, .plus => .decHIncM
         | .minus, .minus => .decHDecM)

/-- R41: each of the 32 command words matches exactly one row of the opcode map, the row of the operation it decodes to,
and the rows have the numbers of words the map's column `words` gives. -/
def Obligations.EveryCommandWordMatchesExactlyOneRow : Prop :=
  (∀ w : CommandWord, ∃ r ∈ commandRows,
    w &&& r.mask = r.value ∧ decode ⟨.tc, w.toNat⟩ = .ok r.instr ∧
      ∀ q ∈ commandRows, w &&& q.mask = q.value → q = r) ∧
  commandRows.map (fun r => ((List.range 32).filter fun k => r.matches (BitVec.ofNat 5 k)).length) =
    [16, 1, 2, 1, 2, 1, 4, 2, 2, 1]

/-- R42: the opcode map of the other seven formats, on every instance. -/
def Obligations.OtherFormatsDecodeByTheirMap : Prop :=
  (∀ g, decode ⟨.tg g, 0⟩ = .ok (.tgDisabled g) ∧ decode ⟨.tg g, 1⟩ = .ok (.tgEnabled g)) ∧
  decode ⟨.pg, 0⟩ = .ok .pgStep ∧
  (∀ b, decode ⟨.deb b, 0⟩ = .ok (.debIn0 b) ∧ decode ⟨.deb b, 1⟩ = .ok (.debIn1 b)) ∧
  (∀ b, decode ⟨.btn b, 0⟩ = .ok (.btnStep b false) ∧ decode ⟨.btn b, 1⟩ = .ok (.btnStep b true)) ∧
  (∀ f v, v ≤ 99 → decode ⟨.bcd f, v⟩ = .ok (.bcdSplit f (BitVec.ofNat 7 v))) ∧
  (List.range 16).map (fun d => (decode ⟨.seg, d⟩).toOption) =
    [some .segEncode0, some .segEncode1, some .segEncode2, some .segEncode3, some .segEncode4, some .segEncode5,
     some .segEncode6, some .segEncode7, some .segEncode8, some .segEncode9, some .segEncodeA, some .segEncodeB,
     some .segEncodeC, some .segEncodeD, some .segEncodeE, some .segEncodeF] ∧
  decode ⟨.mux, 0⟩ = .ok .muxHold ∧ decode ⟨.mux, 1⟩ = .ok .muxAdvance

/-- What is no word (R47, R48; log entries 11 and 12 for the refusals): exactly the words with a bit at or above their
format's width, and exactly the `BCD7` values 100 to 127. -/
def Obligations.OnlyWideWordsAndBcdOutsideItsDomainAreRejected : Prop :=
  ∀ x : OpWord,
    (decode x = .error .wordTooWide ↔ 2 ^ x.port.width ≤ x.bits) ∧
    (decode x = .error .bcdDomain ↔ (∃ f, x.port = .bcd f) ∧ 100 ≤ x.bits ∧ x.bits ≤ 127)

/-- Sanity: words written out from R39, R41, R42 and the port's format decode to the operations they stand for. -/
def Obligations.WordsWrittenFromTheMapDecode : Prop :=
  decode ⟨.tc, 0b11111⟩ = .ok .tick ∧ decode ⟨.tc, 0b01100⟩ = .ok .incH ∧ decode ⟨.tc, 0b00011⟩ = .ok .incM ∧
  decode ⟨.tc, 0b00111⟩ = .ok .decHIncM ∧ decode ⟨.tg .scan, 0b1⟩ = .ok (.tgEnabled .scan) ∧
  decode ⟨.btn .dm, 0b1⟩ = .ok (.btnStep .dm true) ∧ decode ⟨.bcd .m, 0b0111011⟩ = .ok (.bcdSplit .m 59) ∧
  decode ⟨.seg, 0b1011⟩ = .ok .segEncodeB ∧ decode ⟨.mux, 0b1⟩ = .ok .muxAdvance

/-! ### Steps -/

/-- A step runs the operation of the word driven (R37; log entries 1 and 6): where the first entry of the stimulus is a
word that decodes to `i`, the step is `exec i` on the state with that entry taken off; where the word decodes to nothing,
the step refuses. -/
def Obligations.StepRunsTheDecodedOperation : Prop :=
  ∀ (s : State) (x : OpWord) (rest : List Drive), s.stim = .alone x :: rest →
    (∀ i, decode x = .ok i → step s = exec i { s with stim := rest }) ∧
    (decode x = .error .wordTooWide → step s = .refused .wordTooWide) ∧
    (decode x = .error .bcdDomain → step s = .refused .bcdDomain)

/-- A step with block inputs lined up, or with nothing lined up, is one cycle of the whole block (R5, R101; log entries 1
and 2): under the inputs of the first entry, or under a free draw of them. -/
def Obligations.StepRunsOneBlockCycle : Prop :=
  (∀ (s : State) (inp : Inputs) (rest : List Drive), s.stim = .block inp :: rest →
    step s = blockCycle inp { s with stim := rest }) ∧
  (∀ s : State, s.stim = [] →
    step s = blockCycle (Config.freeInputs s.draws) { s with draws := s.draws + 1 })

/-- One cycle of the block (R31, R105, with the wiring of R103): every register takes the next value its own rule gives
it from the snapshot, every output is a function of the snapshot and the inputs, and nothing else changes. -/
def Obligations.BlockCycleCommitsEveryRegisterFromTheSnapshot : Prop :=
  ∀ (s : State) (inp : Inputs), s.Inv → ∃ d,
    (slotDigits s.cfg s.tc)[s.muxIdx]? = some d ∧
    blockCycle inp s = .next { s with
      tc := if tickEvent inp.tickEn s.secCnt then advanceSeconds s.tc
        else requestHours (hoursRequest s) (requestMinutes (minutesRequest s) s.tc)
      secCnt := tickNext s.cfg.pT inp.tickEn s.secCnt
      scanCnt := tickNext s.cfg.pS true s.scanCnt
      ph := phaseNext s.cfg.bl s.cfg.bh s.ph
      btnIh := buttonNext s.cfg.w s.btnIh inp.rawIh
      btnDh := buttonNext s.cfg.w s.btnDh inp.rawDh
      btnIm := buttonNext s.cfg.w s.btnIm inp.rawIm
      btnDm := buttonNext s.cfg.w s.btnDm inp.rawDm
      muxIdx := if s.scanCnt = 0 then (s.muxIdx + 1) % s.cfg.n else s.muxIdx
      ports := ⟨slotDigits s.cfg s.tc, inp.editing, inp.dpIn, blinkLevel s.cfg.bl s.ph⟩
      out := {
        secEv := tickEvent inp.tickEn s.secCnt
        scanEv := tickEvent true s.scanCnt
        blink := blinkLevel s.cfg.bl s.ph
        ih := buttonOut s.btnIh
        dh := buttonOut s.btnDh
        im := buttonOut s.btnIm
        dm := buttonOut s.btnDm
        bcdH := bcdPair s.tc.hours.val
        bcdM := bcdPair s.tc.minutes.val
        bcdS := bcdPair s.tc.seconds.val
        segment := segmentPattern d
        frame := muxFrame ⟨slotDigits s.cfg s.tc, inp.editing, inp.dpIn, blinkLevel s.cfg.bl s.ph⟩ s.muxIdx d } }

/-- Operations of two different components can be performed in either order with one result (R31, R33): neither reads
what the other writes. -/
def Obligations.OperationsOfDifferentComponentsCommute : Prop :=
  ∀ (i j : Instr) (s t : State), componentOf i.port ≠ componentOf j.port →
    (performAll [i, j] s = .next t ↔ performAll [j, i] s = .next t)

/-- The order of evaluation within a cycle is irrelevant (R31, R105): the words of a cycle run in any order give the
result of the cycle. -/
def Obligations.OrderWithinACycleIsIrrelevant : Prop :=
  ∀ (s : State) (inp : Inputs) (ws : List OpWord), s.Inv → ws.Perm (cycleWords inp s) →
    runWords ws (s.setPorts (portsOf inp s)) = blockCycle inp s

/-! ### Invariants, frames, totality -/

/-- Every step, from every state that meets it, keeps the invariant: each register stays in its range (R14, R16, R17, R19,
R20) and the configuration stays one that construction accepts (R7, R109). -/
def Obligations.EveryStepKeepsTheInvariant : Prop :=
  ∀ s t : State, s.Inv → step s = .next t → t.Inv

/-- The state after reset meets the invariant, whatever the open parameters are (R119; log entry 3). -/
def Obligations.ResetMeetsTheInvariant : Prop := State.reset.Inv

/-- Every operation is total but BCD_SPLIT outside [0, 99] (R108): from every state of the invariant an operation answers
a next state exactly when it is well formed. -/
def Obligations.OperationsAreTotalButBcdOutsideItsDomain : Prop :=
  ∀ (i : Instr) (s : State), s.Inv → ((∃ t, exec i s = .next t) ↔ i.wellFormed = true)

/-- No cycle ever stops (R108, R130): from every state of the invariant, whatever the inputs are and whatever sound entry
the stimulus holds, the step answers a next state. -/
def Obligations.NoCycleEverStops : Prop :=
  ∀ s : State, s.Inv → (∀ d ∈ s.stim.head?, d.sound = true) → ∃ t, step s = .next t

/-- A run of the block goes on under every sequence of inputs and stays inside the invariant (R130, R14). -/
def Obligations.RunsOfTheBlockNeverEnd : Prop :=
  ∀ (s : State) (ins : List Inputs), s.Inv →
    ∃ t, runBlock ins s = .next t ∧ t.Inv ∧ t.cfg = s.cfg ∧ t.stim = s.stim ∧ t.draws = s.draws

/-- Every register is written only by its own component (R13, R15, R33): an operation changes nothing but the registers
and outputs of the component that reads its word. -/
def Obligations.OperationsChangeOnlyTheirOwnComponent : Prop :=
  ∀ (i : Instr) (s t : State), exec i s = .next t → OnlyChanges (componentOf i.port) s t

/-- No input and no operation writes a construction parameter (R7). -/
def Obligations.StepsNeverChangeTheConfiguration : Prop :=
  ∀ s t : State, step s = .next t → t.cfg = s.cfg

/-- Outputs are not registers (R21, R23, R30): a cycle of the block depends on no output and no sampled port of an earlier
cycle, and writes every one of them anew. -/
def Obligations.OutputsAndSampledPortsNeverFeedBack : Prop :=
  ∀ (s : State) (inp : Inputs) (o : Outputs) (p : MuxPorts),
    blockCycle inp { s with out := o, ports := p } = blockCycle inp s

/-! ### TimeCore -/

/-- R87: TICK advances the seconds with its two-level carry, in one cycle, whatever the request bits of its word are; the
result is the source's Advance(seconds, +1) (R81). -/
def Obligations.TickAdvancesTheTime : Prop :=
  (∀ w : CommandWord, w &&& 0b10000 = 0b10000 → decode ⟨.tc, w.toNat⟩ = .ok .tick) ∧
  ∀ s : State, ∃ u, exec .tick s = .next { s with tc := u } ∧
    u.seconds.val = (s.tc.seconds.val + 1) % 60 ∧
    u.minutes.val = (if s.tc.seconds.val = 59 then (s.tc.minutes.val + 1) % 60 else s.tc.minutes.val) ∧
    u.hours.val =
      (if s.tc.seconds.val = 59 ∧ s.tc.minutes.val = 59 then (s.tc.hours.val + 1) % 24 else s.tc.hours.val) ∧
    u = advanceSeconds s.tc

/-- R88: HOLD is the word of zeros and leaves the TimeValue, and everything else, unchanged. -/
def Obligations.HoldLeavesTheTimeUnchanged : Prop :=
  (∀ w : CommandWord, w &&& 0b11111 = 0b00000 → decode ⟨.tc, w.toNat⟩ = .ok .hold) ∧
  ∀ s : State, exec .hold s = .next s

/-- R89: INC_H adds one to the hours modulo 24 and carries nowhere. -/
def Obligations.IncHAddsOneHour : Prop :=
  (∀ w : CommandWord, w &&& 0b11011 = 0b01000 → decode ⟨.tc, w.toNat⟩ = .ok .incH) ∧
  ∀ s : State, ∃ u, exec .incH s = .next { s with tc := u } ∧
    u.hours.val = (s.tc.hours.val + 1) % 24 ∧ u.minutes = s.tc.minutes ∧ u.seconds = s.tc.seconds

/-- R90: DEC_H takes one from the hours modulo 24 and borrows nowhere. -/
def Obligations.DecHTakesOneHour : Prop :=
  (∀ w : CommandWord, w &&& 0b11111 = 0b00100 → decode ⟨.tc, w.toNat⟩ = .ok .decH) ∧
  ∀ s : State, ∃ u, exec .decH s = .next { s with tc := u } ∧
    (u.hours.val : Int) = ((s.tc.hours.val : Int) - 1) % 24 ∧ u.minutes = s.tc.minutes ∧ u.seconds = s.tc.seconds

/-- R91: INC_M adds one to the minutes modulo 60 and carries into the hours; the seconds stay. -/
def Obligations.IncMAddsOneMinute : Prop :=
  (∀ w : CommandWord, w &&& 0b11110 = 0b00010 → decode ⟨.tc, w.toNat⟩ = .ok .incM) ∧
  ∀ s : State, ∃ u, exec .incM s = .next { s with tc := u } ∧
    u.hours.val = (s.tc.hours.val + (if s.tc.minutes.val = 59 then 1 else 0)) % 24 ∧
    u.minutes.val = (s.tc.minutes.val + 1) % 60 ∧ u.seconds = s.tc.seconds

/-- R92: DEC_M takes one from the minutes modulo 60 and borrows from the hours; the seconds stay. -/
def Obligations.DecMTakesOneMinute : Prop :=
  (∀ w : CommandWord, w &&& 0b11111 = 0b00001 → decode ⟨.tc, w.toNat⟩ = .ok .decM) ∧
  ∀ s : State, ∃ u, exec .decM s = .next { s with tc := u } ∧
    (u.hours.val : Int) = ((s.tc.hours.val : Int) - (if s.tc.minutes.val = 0 then 1 else 0)) % 24 ∧
    (u.minutes.val : Int) = ((s.tc.minutes.val : Int) - 1) % 60 ∧ u.seconds = s.tc.seconds

/-- R93: INC_H_INC_M adds one to hours and minutes; with minutes 59 the hours gain two. -/
def Obligations.IncHIncMAddsBoth : Prop :=
  (∀ w : CommandWord, w &&& 0b11010 = 0b01010 → decode ⟨.tc, w.toNat⟩ = .ok .incHIncM) ∧
  ∀ s : State, ∃ u, exec .incHIncM s = .next { s with tc := u } ∧
    u.hours.val = (s.tc.hours.val + (if s.tc.minutes.val = 59 then 2 else 1)) % 24 ∧
    u.minutes.val = (s.tc.minutes.val + 1) % 60 ∧ u.seconds = s.tc.seconds

/-- R94: INC_H_DEC_M adds one to hours and takes one from minutes; with minutes 0 the borrow cancels the hours request. -/
def Obligations.IncHDecMAddsAndTakes : Prop :=
  (∀ w : CommandWord, w &&& 0b11011 = 0b01001 → decode ⟨.tc, w.toNat⟩ = .ok .incHDecM) ∧
  ∀ s : State, ∃ u, exec .incHDecM s = .next { s with tc := u } ∧
    u.hours.val = (s.tc.hours.val + (if s.tc.minutes.val = 0 then 0 else 1)) % 24 ∧
    (u.minutes.val : Int) = ((s.tc.minutes.val : Int) - 1) % 60 ∧ u.seconds = s.tc.seconds

/-- R95: DEC_H_INC_M takes one from hours and adds one to minutes; with minutes 59 the carry cancels the hours request. -/
def Obligations.DecHIncMTakesAndAdds : Prop :=
  (∀ w : CommandWord, w &&& 0b11110 = 0b00110 → decode ⟨.tc, w.toNat⟩ = .ok .decHIncM) ∧
  ∀ s : State, ∃ u, exec .decHIncM s = .next { s with tc := u } ∧
    (u.hours.val : Int) = ((s.tc.hours.val : Int) - (if s.tc.minutes.val = 59 then 0 else 1)) % 24 ∧
    u.minutes.val = (s.tc.minutes.val + 1) % 60 ∧ u.seconds = s.tc.seconds

/-- R96: DEC_H_DEC_M takes one from hours and minutes; with minutes 0 the hours lose two. -/
def Obligations.DecHDecMTakesBoth : Prop :=
  (∀ w : CommandWord, w &&& 0b11111 = 0b00101 → decode ⟨.tc, w.toNat⟩ = .ok .decHDecM) ∧
  ∀ s : State, ∃ u, exec .decHDecM s = .next { s with tc := u } ∧
    (u.hours.val : Int) = ((s.tc.hours.val : Int) - (if s.tc.minutes.val = 0 then 2 else 1)) % 24 ∧
    (u.minutes.val : Int) = ((s.tc.minutes.val : Int) - 1) % 60 ∧ u.seconds = s.tc.seconds

/-- R86: an hours request and a minutes request in one cycle are both applied to one TimeValue; the hours receive the
request and the minutes carry, and the two Advance operations in either order give that same result. -/
def Obligations.RequestsOnDifferentUnitsBothApply : Prop :=
  ∀ (hd md : Delta) (s : State), ∃ u, exec (adjustOp hd md) s = .next { s with tc := u } ∧
    (u.hours.val : Int) =
      ((s.tc.hours.val : Int) + hd.toInt +
        (if md = .plus ∧ s.tc.minutes.val = 59 then 1 else if md = .minus ∧ s.tc.minutes.val = 0 then -1 else 0)) % 24 ∧
    (u.minutes.val : Int) = ((s.tc.minutes.val : Int) + md.toInt) % 60 ∧
    u.seconds = s.tc.seconds ∧
    u = requestHours hd (requestMinutes md s.tc) ∧ u = requestMinutes md (requestHours hd s.tc)

/-- R85: where both requests of one unit are 1 and there is no tick, the decrement bit changes nothing, and the operation
is one that increments the unit. -/
def Obligations.IncrementWinsOverDecrement : Prop :=
  ∀ w : CommandWord, w.getLsbD 4 = false →
    (w.getLsbD 3 = true → w.getLsbD 2 = true →
      decode ⟨.tc, w.toNat⟩ = decode ⟨.tc, (w &&& 0b11011).toNat⟩ ∧
        ∃ md, decode ⟨.tc, w.toNat⟩ = .ok (adjustOp .plus md)) ∧
    (w.getLsbD 1 = true → w.getLsbD 0 = true →
      decode ⟨.tc, w.toNat⟩ = decode ⟨.tc, (w &&& 0b11110).toNat⟩ ∧
        ∃ hd, decode ⟨.tc, w.toNat⟩ = .ok (adjustOp hd .plus))

/-- The seconds-since-midnight law (R99 item 3): TICK adds a second and `ADJ(hd, md)` adds the hours and minutes asked
for, modulo a day. -/
def Obligations.OperationsAddToTheSecondsOfTheDay : Prop :=
  ∀ s : State,
    (∃ u, exec .tick s = .next { s with tc := u } ∧ secondsOfDay u = (secondsOfDay s.tc + 1) % 86400) ∧
    ∀ hd md : Delta, ∃ u, exec (adjustOp hd md) s = .next { s with tc := u } ∧
      (secondsOfDay u : Int) = ((secondsOfDay s.tc : Int) + 3600 * hd.toInt + 60 * md.toInt) % 86400

/-- The tick count (R99 item 2): from midnight, `n` ticks give `n` seconds of the day for every `n` up to 86399, and
86400 ticks give midnight again. -/
def Obligations.TicksFromMidnightCountTheDay : Prop :=
  ∀ s : State, s.tc = ⟨0, 0, 0⟩ →
    (∀ n, n ≤ 86399 → ∃ u, performAll (List.replicate n .tick) s = .next { s with tc := u } ∧
      u.hours.val = n / 3600 % 24 ∧ u.minutes.val = n / 60 % 60 ∧ u.seconds.val = n % 60) ∧
    performAll (List.replicate 86400 .tick) s = .next s

/-- The adjusts undo each other (R99 item 4), in either order. -/
def Obligations.IncrementAndDecrementUndoEachOther : Prop :=
  ∀ s : State,
    performAll [.incH, .decH] s = .next s ∧ performAll [.decH, .incH] s = .next s ∧
    performAll [.incM, .decM] s = .next s ∧ performAll [.decM, .incM] s = .next s

/-- A press in a tick cycle is lost (R84, R123): whatever buttons pulse in a cycle with a seconds event, the block's time
advances by the tick alone. -/
def Obligations.PressesInATickCycleAreLost : Prop :=
  ∀ (s : State) (inp : Inputs), s.Inv → inp.tickEn = true → s.secCnt = 0 →
    ∃ t, blockCycle inp s = .next t ∧ t.out.secEv = true ∧ secondsOfDay t.tc = (secondsOfDay s.tc + 1) % 86400

/-- The clock keeps time (R106 items 1 and 4, R54, R99): from construction, with the tick enabled and no button pressed,
after any number of cycles the time is the seed plus one second for every `P_T + 1` cycles. -/
def Obligations.UntouchedClockKeepsTime : Prop :=
  ∀ (cfg : Config) (ins : List Inputs), cfg.Valid →
    (∀ inp ∈ ins, inp.tickEn = true ∧ ∀ b, rawOf inp b = false) →
    ∃ t, runBlock ins (State.init cfg) = .next t ∧
      secondsOfDay t.tc = (secondsOfDay cfg.seed + ins.length / (cfg.pT + 1)) % 86400

/-! ### Timebase -/

/-- R52: TG_DISABLED shows no event and reloads the counter, on either TickGenerator, and changes nothing else. -/
def Obligations.DisabledTickGeneratorReloads : Prop :=
  (∀ g, decode ⟨.tg g, 0⟩ = .ok (.tgDisabled g)) ∧
  ∀ s : State,
    exec (.tgDisabled .sec) s = .next { s with secCnt := s.cfg.pT, out := { s.out with secEv := false } } ∧
    exec (.tgDisabled .scan) s = .next { s with scanCnt := s.cfg.pS, out := { s.out with scanEv := false } }

/-- R53: TG_ENABLED shows the event exactly when the counter is 0, where it reloads; otherwise it counts down by one. -/
def Obligations.EnabledTickGeneratorCountsDown : Prop :=
  (∀ g, decode ⟨.tg g, 1⟩ = .ok (.tgEnabled g)) ∧
  ∀ s : State,
    exec (.tgEnabled .sec) s = .next { s with
      secCnt := if s.secCnt = 0 then s.cfg.pT else s.secCnt - 1
      out := { s.out with secEv := decide (s.secCnt = 0) } } ∧
    exec (.tgEnabled .scan) s = .next { s with
      scanCnt := if s.scanCnt = 0 then s.cfg.pS else s.scanCnt - 1
      out := { s.out with scanEv := decide (s.scanCnt = 0) } }

/-- R57: PG_STEP shows the blink level of the current phase and moves the phase on modulo the period. -/
def Obligations.PulseGeneratorStepsItsPhase : Prop :=
  decode ⟨.pg, 0⟩ = .ok .pgStep ∧
  ∀ s : State, exec .pgStep s = .next { s with
    ph := (s.ph + 1) % (s.cfg.bl + s.cfg.bh)
    out := { s.out with blink := decide (s.cfg.bl ≤ s.ph) } }

/-- The period law (R54): a TickGenerator that stands at its preload, as it does after construction and after every
disabled cycle, fires in the enabled cycles `P + k·(P + 1)` and in no other. -/
def Obligations.TickGeneratorFiresOncePerPeriod : Prop :=
  (∀ cfg g, (State.init cfg).tickCount g = (State.init cfg).preload g) ∧
  (∀ g s t, exec (.tgDisabled g) s = .next t → t.tickCount g = t.preload g) ∧
  ∀ (g : TickGen) (s : State) (n : Nat), s.tickCount g = s.preload g →
    ∃ t, performAll (List.replicate (n + 1) (.tgEnabled g)) s = .next t ∧
      (t.out.event g = true ↔ ∃ k, n = s.preload g + k * (s.preload g + 1))

/-- The waveform law (R58): from construction, in the last of any number of cycles, the block's blink is high exactly when
that cycle's number modulo the period is at least `BL`. -/
def Obligations.BlinkFollowsItsWaveform : Prop :=
  ∀ (cfg : Config) (ins : List Inputs) (n : Nat), cfg.Valid → ins.length = n + 1 →
    ∃ t, runBlock ins (State.init cfg) = .next t ∧
      (t.out.blink = true ↔ cfg.bl ≤ n % (cfg.bl + cfg.bh))

/-- Disabling the tick restarts the second (R126): after one disabled cycle the events come every `P_T + 1` enabled cycles,
counted from that cycle, whatever the counter was. -/
def Obligations.DisablingTheTickRestartsTheSecond : Prop :=
  ∀ (s : State) (off : Inputs) (ins : List Inputs) (n : Nat), s.Inv → off.tickEn = false →
    ins.length = n + 1 → (∀ inp ∈ ins, inp.tickEn = true) →
    ∃ t, runBlock (off :: ins) s = .next t ∧
      (t.out.secEv = true ↔ (n + 1) % (s.cfg.pT + 1) = 0)

/-! ### Buttons -/

/-- R61 with R60, as R62 and R63 split it: a debouncer's counter and output on a false and on a true input, on every
instance, and nothing outside its button changes. -/
def Obligations.DebouncerStepsItsCounter : Prop :=
  ∀ (b : Button) (i : Bool) (s : State),
    decode ⟨.deb b, i.toNat⟩ = .ok (debounceOp b i) ∧
    ∃ t, exec (debounceOp b i) s = .next t ∧
      t.button b = { s.button b with
        c := if (s.button b).c = 1 then (if i then 2 else 1)
          else if (s.button b).c = 0 then 1
          else ((s.button b).c + 1) % 2 ^ s.cfg.w } ∧
      t.out.button b = { s.out.button b with pressed := decide ((s.button b).c = 0) } ∧
      OnlyChanges (.button b) s t

/-- R66: BTN_STEP shows the edge and the pulse of the snapshot, shifts the raw line through `s1`, `s2` and `prev`, and
steps the debouncer with the edge, on every instance. -/
def Obligations.ButtonStepsItsRegisters : Prop :=
  ∀ (b : Button) (raw : Bool) (s : State),
    decode ⟨.btn b, raw.toNat⟩ = .ok (.btnStep b raw) ∧
    ∃ t, exec (.btnStep b raw) s = .next t ∧
      t.out.button b = ⟨(s.button b).s2 && !(s.button b).prev, decide ((s.button b).c = 0)⟩ ∧
      t.button b =
        { s1 := raw
          s2 := (s.button b).s1
          prev := (s.button b).s2
          c := if (s.button b).c = 1 then (if ((s.button b).s2 && !(s.button b).prev) = true then 2 else 1)
            else if (s.button b).c = 0 then 1
            else ((s.button b).c + 1) % 2 ^ s.cfg.w } ∧
      OnlyChanges (.button b) s t

/-- The timing law of the debouncer (R64): `k` cycles from a trigger on, the counter is `k + 1` up to the wrap, 0 in the
pulse cycle, idle again after 2^`W` cycles; the pulse shows in the last of 2^`W` cycles and in no other of the window,
whatever the input does in between. -/
def Obligations.DebouncerPulsesOncePerWindow : Prop :=
  ∀ (b : Button) (s : State) (is : List Bool), 2 ≤ s.cfg.w → (s.button b).c = 1 → is.length < 2 ^ s.cfg.w →
    ∃ t, performAll (.debIn1 b :: is.map (debounceOp b)) s = .next t ∧
      (t.button b).c =
        (if is.length + 1 = 2 ^ s.cfg.w then 1
         else if is.length + 1 = 2 ^ s.cfg.w - 1 then 0 else is.length + 2) ∧
      ((t.out.button b).pressed = true ↔ is.length + 1 = 2 ^ s.cfg.w)

/-- The synchroniser's latency (R67): from construction, in the last of any number of cycles, the edge of a button is its
raw line two cycles before and not three cycles before. -/
def Obligations.EdgesFollowTheRawLineByTwoCycles : Prop :=
  ∀ (cfg : Config) (ins : List Inputs) (b : Button), cfg.Valid → ins ≠ [] →
    ∃ t, runBlock ins (State.init cfg) = .next t ∧
      (t.out.button b).edge = (rawBefore ins b 2 && !rawBefore ins b 3)

/-- A press takes one window to pulse (R64, R67): in the block, from a cycle with an edge and an idle debouncer on, the
pulse shows in the last of 2^`W` cycles and in no earlier one, whatever the inputs are. -/
def Obligations.PressesPulseAfterOneWindow : Prop :=
  ∀ (s : State) (b : Button) (ins : List Inputs), s.Inv →
    (s.button b).s2 = true → (s.button b).prev = false → (s.button b).c = 1 →
    1 ≤ ins.length → ins.length ≤ 2 ^ s.cfg.w →
    ∃ t, runBlock ins s = .next t ∧ ((t.out.button b).pressed = true ↔ ins.length = 2 ^ s.cfg.w)

/-- A line held from construction pulses exactly once (R68 items 2 and 4): in cycle 2^`W` + 1, and in no other. -/
def Obligations.HeldLinesPulseOnce : Prop :=
  ∀ (cfg : Config) (ins : List Inputs) (b : Button) (n : Nat), cfg.Valid → ins.length = n + 1 →
    (∀ inp ∈ ins, rawOf inp b = true) →
    ∃ t, runBlock ins (State.init cfg) = .next t ∧ ((t.out.button b).pressed = true ↔ n = 2 ^ cfg.w + 1)

/-! ### Digits -/

/-- R69: BCD_SPLIT gives the tens and ones of a value in [0, 99] on its converter and changes nothing else; a value outside
is refused. -/
def Obligations.BcdSplitGivesTensAndOnes : Prop :=
  ∀ (f : Converter) (v : BcdValue) (s : State),
    (v.toNat ≤ 99 → decode ⟨.bcd f, v.toNat⟩ = .ok (.bcdSplit f v) ∧
      ∃ t, exec (.bcdSplit f v) s = .next t ∧
        (t.out.digits f).tens.toNat = v.toNat / 10 ∧ (t.out.digits f).ones.toNat = v.toNat % 10 ∧
        OnlyChanges (.converter f) s t) ∧
    (100 ≤ v.toNat → decode ⟨.bcd f, v.toNat⟩ = .error .bcdDomain ∧ exec (.bcdSplit f v) s = .refused .bcdDomain)

/-- R71: each of the sixteen `SEG4` words is an operation, and the sixteen SEG_ENCODE operations give the sixteen patterns
of the table and change nothing else. -/
def Obligations.SegmentEncoderGivesItsTable : Prop :=
  (List.range 16).map (fun d => (decode ⟨.seg, d⟩).toOption) =
    [some .segEncode0, some .segEncode1, some .segEncode2, some .segEncode3, some .segEncode4, some .segEncode5,
     some .segEncode6, some .segEncode7, some .segEncode8, some .segEncode9, some .segEncodeA, some .segEncodeB,
     some .segEncodeC, some .segEncodeD, some .segEncodeE, some .segEncodeF] ∧
  ∀ s : State,
    exec .segEncode0 s = .next { s with out := { s.out with segment := 0x3F } } ∧
    exec .segEncode1 s = .next { s with out := { s.out with segment := 0x06 } } ∧
    exec .segEncode2 s = .next { s with out := { s.out with segment := 0x5B } } ∧
    exec .segEncode3 s = .next { s with out := { s.out with segment := 0x4F } } ∧
    exec .segEncode4 s = .next { s with out := { s.out with segment := 0x66 } } ∧
    exec .segEncode5 s = .next { s with out := { s.out with segment := 0x6D } } ∧
    exec .segEncode6 s = .next { s with out := { s.out with segment := 0x7D } } ∧
    exec .segEncode7 s = .next { s with out := { s.out with segment := 0x07 } } ∧
    exec .segEncode8 s = .next { s with out := { s.out with segment := 0x7F } } ∧
    exec .segEncode9 s = .next { s with out := { s.out with segment := 0x6F } } ∧
    exec .segEncodeA s = .next { s with out := { s.out with segment := 0x77 } } ∧
    exec .segEncodeB s = .next { s with out := { s.out with segment := 0x7C } } ∧
    exec .segEncodeC s = .next { s with out := { s.out with segment := 0x58 } } ∧
    exec .segEncodeD s = .next { s with out := { s.out with segment := 0x5E } } ∧
    exec .segEncodeE s = .next { s with out := { s.out with segment := 0x79 } } ∧
    exec .segEncodeF s = .next { s with out := { s.out with segment := 0x71 } }

/-- R70, beside R104: the digits of a TimeValue's fields stay in their narrower ranges; in the top level, in every cycle
from every state and under every configuration, no word sent to a converter leaves its domain; a digit above 9 reaches the
encoder or the multiplexer only as the constant of the slot's own source, so that none does where every constant of the
slot map is decimal. That the constants of the map stand outside R70's conclusion, which R70 derives from the converters
and the TimeValue, is the model's reading (log entry 26). -/
def Obligations.DigitsOfATimeStayInRange : Prop :=
  (∀ (s : State) (inp : Inputs),
    (∀ x ∈ cycleWords inp s, ∀ f, x.port = .bcd f → x.bits ≤ 99) ∧
    (∀ x ∈ cycleWords inp s, x.port = .seg → 9 < x.bits →
      ∃ v : Digit, s.cfg.slots[s.muxIdx]? = some (.const v) ∧ x.bits = v.toNat) ∧
    (∀ (k : Nat) (d : Digit), (portsOf inp s).digits[k]? = some d → 9 < d.toNat → s.cfg.slots[k]? = some (.const d)) ∧
    (mapDecimal s.cfg = true →
      (∀ x ∈ cycleWords inp s, x.port = .seg → x.bits ≤ 9) ∧ ∀ d ∈ (portsOf inp s).digits, d.toNat ≤ 9)) ∧
  ∀ t : TimeValue,
    (bcdPair (fieldOf .h t)).tens.toNat ≤ 2 ∧ (bcdPair (fieldOf .h t)).ones.toNat ≤ 9 ∧
    ((bcdPair (fieldOf .h t)).tens.toNat = 2 → (bcdPair (fieldOf .h t)).ones.toNat ≤ 3) ∧
    (bcdPair (fieldOf .m t)).tens.toNat ≤ 5 ∧ (bcdPair (fieldOf .m t)).ones.toNat ≤ 9 ∧
    (bcdPair (fieldOf .s t)).tens.toNat ≤ 5 ∧ (bcdPair (fieldOf .s t)).ones.toNat ≤ 9 ∧
    ∀ f, 10 * (bcdPair (fieldOf f t)).tens.toNat + (bcdPair (fieldOf f t)).ones.toNat = fieldOf f t

/-! ### Display -/

/-- R76 with the outputs of R75: MUX_HOLD shows the selected slot, keeps the index and steps the scan TickGenerator; with
`P_S = 0` no cycle of the block performs it. R76 is the step of a cycle with `scan_ev = 0`; that the same step is taken
where the word is driven alone and disagrees with the counter (`scanCnt = 0`), and that the ports are a field of State,
are the model's choices (log entries 19 and 5). -/
def Obligations.MuxHoldKeepsTheIndex : Prop :=
  decode ⟨.mux, 0⟩ = .ok .muxHold ∧
  (∀ (s : State) (inp : Inputs), s.Inv → s.cfg.pS = 0 → ⟨.mux, 0⟩ ∉ cycleWords inp s) ∧
  ∀ (s : State) (d : Digit), s.ports.digits[s.muxIdx]? = some d →
    exec .muxHold s = .next { s with
      scanCnt := if s.scanCnt = 0 then s.cfg.pS else s.scanCnt - 1
      out := { s.out with
        scanEv := decide (s.scanCnt = 0)
        frame := {
          blank := s.ports.editing.testBit s.muxIdx && !s.ports.blink
          selIdx := s.muxIdx
          selOnehot := 2 ^ s.muxIdx
          seg := if (s.ports.editing.testBit s.muxIdx && !s.ports.blink) = true then 0 else segmentPattern d
          dp := s.ports.dp.testBit s.muxIdx && !(s.ports.editing.testBit s.muxIdx && !s.ports.blink) } } }

/-- R77 with the outputs of R75: MUX_ADVANCE shows the slot selected now, moves the index on modulo `N` and steps the scan
TickGenerator. R77 is the step of a cycle with `scan_ev = 1`; that the same step is taken where the word is driven alone
and disagrees with the counter (`scanCnt ≠ 0`), and that the ports are a field of State, are the model's choices (log
entries 19 and 5). -/
def Obligations.MuxAdvanceMovesTheIndexOn : Prop :=
  decode ⟨.mux, 1⟩ = .ok .muxAdvance ∧
  ∀ (s : State) (d : Digit), s.ports.digits[s.muxIdx]? = some d →
    exec .muxAdvance s = .next { s with
      muxIdx := (s.muxIdx + 1) % s.cfg.n
      scanCnt := if s.scanCnt = 0 then s.cfg.pS else s.scanCnt - 1
      out := { s.out with
        scanEv := decide (s.scanCnt = 0)
        frame := {
          blank := s.ports.editing.testBit s.muxIdx && !s.ports.blink
          selIdx := s.muxIdx
          selOnehot := 2 ^ s.muxIdx
          seg := if (s.ports.editing.testBit s.muxIdx && !s.ports.blink) = true then 0 else segmentPattern d
          dp := s.ports.dp.testBit s.muxIdx && !(s.ports.editing.testBit s.muxIdx && !s.ports.blink) } } }

/-- Where no slot has the number of the select index, both multiplexer operations refuse (R20, I5; log entry 13). -/
def Obligations.MuxRefusesWithoutASelectedSlot : Prop :=
  ∀ s : State, s.ports.digits[s.muxIdx]? = none →
    exec .muxHold s = .refused .selectOutOfRange ∧ exec .muxAdvance s = .refused .selectOutOfRange

/-- The scan law (R78): from construction, in the last of any number of cycles the slot shown is that cycle's number
divided by `P_S + 1`, modulo `N`, and the select vector has that bit and no other. -/
def Obligations.ScanVisitsTheSlotsInTurn : Prop :=
  ∀ (cfg : Config) (ins : List Inputs) (n : Nat), cfg.Valid → ins.length = n + 1 →
    ∃ t, runBlock ins (State.init cfg) = .next t ∧
      t.out.frame.selIdx = n / (cfg.pS + 1) % cfg.n ∧
      ∀ k, t.out.frame.selOnehot.testBit k = true ↔ k = n / (cfg.pS + 1) % cfg.n

/-- The blink law in the block (R79, R106 item 2): the selected slot shows its digit of the time of the cycle, and is
blanked, point and all, exactly when it is marked editing while the blink is low. -/
def Obligations.EditedSlotsBlankWhileTheBlinkIsLow : Prop :=
  ∀ (s : State) (inp : Inputs) (src : DigitSource), s.Inv → s.cfg.slots[s.muxIdx]? = some src →
    ∃ t, blockCycle inp s = .next t ∧
      (inp.editing.testBit s.muxIdx = true ∧ s.ph < s.cfg.bl →
        t.out.frame.seg = 0 ∧ t.out.frame.dp = false) ∧
      (¬(inp.editing.testBit s.muxIdx = true ∧ s.ph < s.cfg.bl) →
        t.out.frame.seg = segmentPattern (sourceDigit s.tc src) ∧ t.out.frame.dp = inp.dpIn.testBit s.muxIdx)

/-! ### Construction -/

/-- Construction and restart (R119, R13): a block that construction gives stands at the reset value of every register and
meets the invariant; a restart gives the same registers with a fresh seed, from any state. -/
def Obligations.ConstructionGivesTheResetValues : Prop :=
  (∀ (r : ConfigRequest) (s : State), construct r = .ok s →
    s.tc.hours.val = r.seedHours ∧ s.tc.minutes.val = r.seedMinutes ∧ s.tc.seconds.val = r.seedSeconds ∧
    s.secCnt + 1 = r.tickCycles ∧ s.secCnt = s.cfg.pT ∧ s.scanCnt + 1 = r.scanCycles ∧ s.scanCnt = s.cfg.pS ∧
    s.ph = 0 ∧ s.muxIdx = 0 ∧ (∀ b, s.button b = ⟨false, false, false, 1⟩) ∧
    s.cfg.bl = r.bl ∧ s.cfg.bh = r.bh ∧ s.cfg.w = r.w ∧ s.cfg.slots = r.slots ∧ s.Inv) ∧
  ∀ (s : State) (seed : TimeValue),
    (restart s seed).tc = seed ∧ (restart s seed).secCnt = s.cfg.pT ∧ (restart s seed).scanCnt = s.cfg.pS ∧
    (restart s seed).ph = 0 ∧ (restart s seed).muxIdx = 0 ∧ (∀ b, (restart s seed).button b = ⟨false, false, false, 1⟩) ∧
    (restart s seed).cfg = { s.cfg with seed := seed } ∧ (s.cfg.Valid → (restart s seed).Inv)

/-- The configuration errors (R109): with the atomic policy a configuration is refused exactly when a check fails, and a
code is reported only for its own cause; the sequential policy is always refused (R97; log entry 14). -/
def Obligations.ConstructionRefusesExactlyTheFailingConfigurations : Prop :=
  ∀ r : ConfigRequest,
    (r.policy = .sequential → ∃ e, construct r = .error e) ∧
    (r.policy = .atomic →
      ((∃ e, construct r = .error e) ↔
        (r.tickCycles : Int) - 1 < 0 ∨ (r.scanCycles : Int) - 1 < 0 ∨ r.slots.length = 0 ∨ r.bl + r.bh = 0 ∨ r.w < 2 ∨
          r.seedHours > 23 ∨ r.seedMinutes > 59 ∨ r.seedSeconds > 59)) ∧
    (construct r = .error .tickPreload → (r.tickCycles : Int) - 1 < 0) ∧
    (construct r = .error .scanPreload → (r.scanCycles : Int) - 1 < 0) ∧
    (construct r = .error .digitsZero → r.slots.length = 0) ∧
    (construct r = .error .blinkPeriod → r.bl + r.bh = 0) ∧
    (construct r = .error .debounceWidth → r.w < 2) ∧
    (construct r = .error .seedRange → r.seedHours > 23 ∨ r.seedMinutes > 59 ∨ r.seedSeconds > 59) ∧
    (construct r = .error .advancePolicy → r.policy = .sequential)

/-- The outputs in cycle 0 (R120): no edge, no pulse, slot 0 selected, and the events and the blink only where a preload
or `BL` is 0. -/
def Obligations.OutputsInTheFirstCycle : Prop :=
  ∀ (cfg : Config) (inp : Inputs), cfg.Valid →
    ∃ t, blockCycle inp (State.init cfg) = .next t ∧
      t.out.secEv = (inp.tickEn && decide (cfg.pT = 0)) ∧ t.out.scanEv = decide (cfg.pS = 0) ∧
      t.out.blink = decide (cfg.bl = 0) ∧
      (∀ b, t.out.button b = ⟨false, false⟩) ∧
      t.out.frame.selIdx = 0 ∧ t.out.frame.selOnehot = 1 ∧
      commandOf inp (State.init cfg) = (if inp.tickEn = true ∧ cfg.pT = 0 then 0b10000 else 0b00000)
end

