-- ==== Sys2Proof/Laws/State.lean ====
section
/-! SUPPORT. One lemma per field per update of the state: what each named write changes and what it leaves alone. -/

namespace Sys2Proof.Machine

section
variable (s : State)

/-! ### `setTickCount` -/

@[simp] theorem State.setTickCount_cfg (g : TickGen) (x : Nat) : (s.setTickCount g x).cfg = s.cfg := by cases g <;> rfl
@[simp] theorem State.setTickCount_tc (g : TickGen) (x : Nat) : (s.setTickCount g x).tc = s.tc := by cases g <;> rfl
@[simp] theorem State.setTickCount_ph (g : TickGen) (x : Nat) : (s.setTickCount g x).ph = s.ph := by cases g <;> rfl
@[simp] theorem State.setTickCount_btnIh (g : TickGen) (x : Nat) : (s.setTickCount g x).btnIh = s.btnIh := by cases g <;> rfl
@[simp] theorem State.setTickCount_btnDh (g : TickGen) (x : Nat) : (s.setTickCount g x).btnDh = s.btnDh := by cases g <;> rfl
@[simp] theorem State.setTickCount_btnIm (g : TickGen) (x : Nat) : (s.setTickCount g x).btnIm = s.btnIm := by cases g <;> rfl
@[simp] theorem State.setTickCount_btnDm (g : TickGen) (x : Nat) : (s.setTickCount g x).btnDm = s.btnDm := by cases g <;> rfl
@[simp] theorem State.setTickCount_muxIdx (g : TickGen) (x : Nat) : (s.setTickCount g x).muxIdx = s.muxIdx := by cases g <;> rfl
@[simp] theorem State.setTickCount_ports (g : TickGen) (x : Nat) : (s.setTickCount g x).ports = s.ports := by cases g <;> rfl
@[simp] theorem State.setTickCount_out (g : TickGen) (x : Nat) : (s.setTickCount g x).out = s.out := by cases g <;> rfl
@[simp] theorem State.setTickCount_stim (g : TickGen) (x : Nat) : (s.setTickCount g x).stim = s.stim := by cases g <;> rfl
@[simp] theorem State.setTickCount_draws (g : TickGen) (x : Nat) : (s.setTickCount g x).draws = s.draws := by cases g <;> rfl
@[simp] theorem State.setTickCount_sec_secCnt (x : Nat) : (s.setTickCount .sec x).secCnt = x := rfl
@[simp] theorem State.setTickCount_sec_scanCnt (x : Nat) : (s.setTickCount .sec x).scanCnt = s.scanCnt := rfl
@[simp] theorem State.setTickCount_scan_scanCnt (x : Nat) : (s.setTickCount .scan x).scanCnt = x := rfl
@[simp] theorem State.setTickCount_scan_secCnt (x : Nat) : (s.setTickCount .scan x).secCnt = s.secCnt := rfl

/-! ### `showEvent` -/

@[simp] theorem State.showEvent_cfg (g : TickGen) (x : Bool) : (s.showEvent g x).cfg = s.cfg := by cases g <;> rfl
@[simp] theorem State.showEvent_tc (g : TickGen) (x : Bool) : (s.showEvent g x).tc = s.tc := by cases g <;> rfl
@[simp] theorem State.showEvent_secCnt (g : TickGen) (x : Bool) : (s.showEvent g x).secCnt = s.secCnt := by cases g <;> rfl
@[simp] theorem State.showEvent_scanCnt (g : TickGen) (x : Bool) : (s.showEvent g x).scanCnt = s.scanCnt := by cases g <;> rfl
@[simp] theorem State.showEvent_ph (g : TickGen) (x : Bool) : (s.showEvent g x).ph = s.ph := by cases g <;> rfl
@[simp] theorem State.showEvent_btnIh (g : TickGen) (x : Bool) : (s.showEvent g x).btnIh = s.btnIh := by cases g <;> rfl
@[simp] theorem State.showEvent_btnDh (g : TickGen) (x : Bool) : (s.showEvent g x).btnDh = s.btnDh := by cases g <;> rfl
@[simp] theorem State.showEvent_btnIm (g : TickGen) (x : Bool) : (s.showEvent g x).btnIm = s.btnIm := by cases g <;> rfl
@[simp] theorem State.showEvent_btnDm (g : TickGen) (x : Bool) : (s.showEvent g x).btnDm = s.btnDm := by cases g <;> rfl
@[simp] theorem State.showEvent_muxIdx (g : TickGen) (x : Bool) : (s.showEvent g x).muxIdx = s.muxIdx := by cases g <;> rfl
@[simp] theorem State.showEvent_ports (g : TickGen) (x : Bool) : (s.showEvent g x).ports = s.ports := by cases g <;> rfl
@[simp] theorem State.showEvent_stim (g : TickGen) (x : Bool) : (s.showEvent g x).stim = s.stim := by cases g <;> rfl
@[simp] theorem State.showEvent_draws (g : TickGen) (x : Bool) : (s.showEvent g x).draws = s.draws := by cases g <;> rfl
@[simp] theorem State.showEvent_sec_out (x : Bool) : (s.showEvent .sec x).out = { s.out with secEv := x } := rfl
@[simp] theorem State.showEvent_scan_out (x : Bool) : (s.showEvent .scan x).out = { s.out with scanEv := x } := rfl

/-! ### `setButton` -/

@[simp] theorem State.setButton_cfg (b : Button) (x : ButtonRegs) : (s.setButton b x).cfg = s.cfg := by cases b <;> rfl
@[simp] theorem State.setButton_tc (b : Button) (x : ButtonRegs) : (s.setButton b x).tc = s.tc := by cases b <;> rfl
@[simp] theorem State.setButton_secCnt (b : Button) (x : ButtonRegs) : (s.setButton b x).secCnt = s.secCnt := by cases b <;> rfl
@[simp] theorem State.setButton_scanCnt (b : Button) (x : ButtonRegs) : (s.setButton b x).scanCnt = s.scanCnt := by cases b <;> rfl
@[simp] theorem State.setButton_ph (b : Button) (x : ButtonRegs) : (s.setButton b x).ph = s.ph := by cases b <;> rfl
@[simp] theorem State.setButton_muxIdx (b : Button) (x : ButtonRegs) : (s.setButton b x).muxIdx = s.muxIdx := by cases b <;> rfl
@[simp] theorem State.setButton_ports (b : Button) (x : ButtonRegs) : (s.setButton b x).ports = s.ports := by cases b <;> rfl
@[simp] theorem State.setButton_out (b : Button) (x : ButtonRegs) : (s.setButton b x).out = s.out := by cases b <;> rfl
@[simp] theorem State.setButton_stim (b : Button) (x : ButtonRegs) : (s.setButton b x).stim = s.stim := by cases b <;> rfl
@[simp] theorem State.setButton_draws (b : Button) (x : ButtonRegs) : (s.setButton b x).draws = s.draws := by cases b <;> rfl
@[simp] theorem State.setButton_ih_btnIh (x : ButtonRegs) : (s.setButton .ih x).btnIh = x := rfl
@[simp] theorem State.setButton_ih_btnDh (x : ButtonRegs) : (s.setButton .ih x).btnDh = s.btnDh := rfl
@[simp] theorem State.setButton_ih_btnIm (x : ButtonRegs) : (s.setButton .ih x).btnIm = s.btnIm := rfl
@[simp] theorem State.setButton_ih_btnDm (x : ButtonRegs) : (s.setButton .ih x).btnDm = s.btnDm := rfl
@[simp] theorem State.setButton_dh_btnIh (x : ButtonRegs) : (s.setButton .dh x).btnIh = s.btnIh := rfl
@[simp] theorem State.setButton_dh_btnDh (x : ButtonRegs) : (s.setButton .dh x).btnDh = x := rfl
@[simp] theorem State.setButton_dh_btnIm (x : ButtonRegs) : (s.setButton .dh x).btnIm = s.btnIm := rfl
@[simp] theorem State.setButton_dh_btnDm (x : ButtonRegs) : (s.setButton .dh x).btnDm = s.btnDm := rfl
@[simp] theorem State.setButton_im_btnIh (x : ButtonRegs) : (s.setButton .im x).btnIh = s.btnIh := rfl
@[simp] theorem State.setButton_im_btnDh (x : ButtonRegs) : (s.setButton .im x).btnDh = s.btnDh := rfl
@[simp] theorem State.setButton_im_btnIm (x : ButtonRegs) : (s.setButton .im x).btnIm = x := rfl
@[simp] theorem State.setButton_im_btnDm (x : ButtonRegs) : (s.setButton .im x).btnDm = s.btnDm := rfl
@[simp] theorem State.setButton_dm_btnIh (x : ButtonRegs) : (s.setButton .dm x).btnIh = s.btnIh := rfl
@[simp] theorem State.setButton_dm_btnDh (x : ButtonRegs) : (s.setButton .dm x).btnDh = s.btnDh := rfl
@[simp] theorem State.setButton_dm_btnIm (x : ButtonRegs) : (s.setButton .dm x).btnIm = s.btnIm := rfl
@[simp] theorem State.setButton_dm_btnDm (x : ButtonRegs) : (s.setButton .dm x).btnDm = x := rfl

/-! ### `showButton` -/

@[simp] theorem State.showButton_cfg (b : Button) (x : ButtonOut) : (s.showButton b x).cfg = s.cfg := by cases b <;> rfl
@[simp] theorem State.showButton_tc (b : Button) (x : ButtonOut) : (s.showButton b x).tc = s.tc := by cases b <;> rfl
@[simp] theorem State.showButton_secCnt (b : Button) (x : ButtonOut) : (s.showButton b x).secCnt = s.secCnt := by cases b <;> rfl
@[simp] theorem State.showButton_scanCnt (b : Button) (x : ButtonOut) : (s.showButton b x).scanCnt = s.scanCnt := by cases b <;> rfl
@[simp] theorem State.showButton_ph (b : Button) (x : ButtonOut) : (s.showButton b x).ph = s.ph := by cases b <;> rfl
@[simp] theorem State.showButton_btnIh (b : Button) (x : ButtonOut) : (s.showButton b x).btnIh = s.btnIh := by cases b <;> rfl
@[simp] theorem State.showButton_btnDh (b : Button) (x : ButtonOut) : (s.showButton b x).btnDh = s.btnDh := by cases b <;> rfl
@[simp] theorem State.showButton_btnIm (b : Button) (x : ButtonOut) : (s.showButton b x).btnIm = s.btnIm := by cases b <;> rfl
@[simp] theorem State.showButton_btnDm (b : Button) (x : ButtonOut) : (s.showButton b x).btnDm = s.btnDm := by cases b <;> rfl
@[simp] theorem State.showButton_muxIdx (b : Button) (x : ButtonOut) : (s.showButton b x).muxIdx = s.muxIdx := by cases b <;> rfl
@[simp] theorem State.showButton_ports (b : Button) (x : ButtonOut) : (s.showButton b x).ports = s.ports := by cases b <;> rfl
@[simp] theorem State.showButton_stim (b : Button) (x : ButtonOut) : (s.showButton b x).stim = s.stim := by cases b <;> rfl
@[simp] theorem State.showButton_draws (b : Button) (x : ButtonOut) : (s.showButton b x).draws = s.draws := by cases b <;> rfl
@[simp] theorem State.showButton_ih_out (x : ButtonOut) : (s.showButton .ih x).out = { s.out with ih := x } := rfl
@[simp] theorem State.showButton_dh_out (x : ButtonOut) : (s.showButton .dh x).out = { s.out with dh := x } := rfl
@[simp] theorem State.showButton_im_out (x : ButtonOut) : (s.showButton .im x).out = { s.out with im := x } := rfl
@[simp] theorem State.showButton_dm_out (x : ButtonOut) : (s.showButton .dm x).out = { s.out with dm := x } := rfl

/-! ### `showDigits` -/

@[simp] theorem State.showDigits_cfg (f : Converter) (x : DigitPair) : (s.showDigits f x).cfg = s.cfg := by cases f <;> rfl
@[simp] theorem State.showDigits_tc (f : Converter) (x : DigitPair) : (s.showDigits f x).tc = s.tc := by cases f <;> rfl
@[simp] theorem State.showDigits_secCnt (f : Converter) (x : DigitPair) : (s.showDigits f x).secCnt = s.secCnt := by cases f <;> rfl
@[simp] theorem State.showDigits_scanCnt (f : Converter) (x : DigitPair) : (s.showDigits f x).scanCnt = s.scanCnt := by cases f <;> rfl
@[simp] theorem State.showDigits_ph (f : Converter) (x : DigitPair) : (s.showDigits f x).ph = s.ph := by cases f <;> rfl
@[simp] theorem State.showDigits_btnIh (f : Converter) (x : DigitPair) : (s.showDigits f x).btnIh = s.btnIh := by cases f <;> rfl
@[simp] theorem State.showDigits_btnDh (f : Converter) (x : DigitPair) : (s.showDigits f x).btnDh = s.btnDh := by cases f <;> rfl
@[simp] theorem State.showDigits_btnIm (f : Converter) (x : DigitPair) : (s.showDigits f x).btnIm = s.btnIm := by cases f <;> rfl
@[simp] theorem State.showDigits_btnDm (f : Converter) (x : DigitPair) : (s.showDigits f x).btnDm = s.btnDm := by cases f <;> rfl
@[simp] theorem State.showDigits_muxIdx (f : Converter) (x : DigitPair) : (s.showDigits f x).muxIdx = s.muxIdx := by cases f <;> rfl
@[simp] theorem State.showDigits_ports (f : Converter) (x : DigitPair) : (s.showDigits f x).ports = s.ports := by cases f <;> rfl
@[simp] theorem State.showDigits_stim (f : Converter) (x : DigitPair) : (s.showDigits f x).stim = s.stim := by cases f <;> rfl
@[simp] theorem State.showDigits_draws (f : Converter) (x : DigitPair) : (s.showDigits f x).draws = s.draws := by cases f <;> rfl
@[simp] theorem State.showDigits_h_out (x : DigitPair) : (s.showDigits .h x).out = { s.out with bcdH := x } := rfl
@[simp] theorem State.showDigits_m_out (x : DigitPair) : (s.showDigits .m x).out = { s.out with bcdM := x } := rfl
@[simp] theorem State.showDigits_s_out (x : DigitPair) : (s.showDigits .s x).out = { s.out with bcdS := x } := rfl

/-! ### `showSegment` -/

@[simp] theorem State.showSegment_cfg (x : Pattern) : (s.showSegment x).cfg = s.cfg := rfl
@[simp] theorem State.showSegment_tc (x : Pattern) : (s.showSegment x).tc = s.tc := rfl
@[simp] theorem State.showSegment_secCnt (x : Pattern) : (s.showSegment x).secCnt = s.secCnt := rfl
@[simp] theorem State.showSegment_scanCnt (x : Pattern) : (s.showSegment x).scanCnt = s.scanCnt := rfl
@[simp] theorem State.showSegment_ph (x : Pattern) : (s.showSegment x).ph = s.ph := rfl
@[simp] theorem State.showSegment_btnIh (x : Pattern) : (s.showSegment x).btnIh = s.btnIh := rfl
@[simp] theorem State.showSegment_btnDh (x : Pattern) : (s.showSegment x).btnDh = s.btnDh := rfl
@[simp] theorem State.showSegment_btnIm (x : Pattern) : (s.showSegment x).btnIm = s.btnIm := rfl
@[simp] theorem State.showSegment_btnDm (x : Pattern) : (s.showSegment x).btnDm = s.btnDm := rfl
@[simp] theorem State.showSegment_muxIdx (x : Pattern) : (s.showSegment x).muxIdx = s.muxIdx := rfl
@[simp] theorem State.showSegment_ports (x : Pattern) : (s.showSegment x).ports = s.ports := rfl
@[simp] theorem State.showSegment_stim (x : Pattern) : (s.showSegment x).stim = s.stim := rfl
@[simp] theorem State.showSegment_draws (x : Pattern) : (s.showSegment x).draws = s.draws := rfl
@[simp] theorem State.showSegment_out (x : Pattern) : (s.showSegment x).out = { s.out with segment := x } := rfl

/-! ### `showBlink` -/

@[simp] theorem State.showBlink_cfg (x : Bool) : (s.showBlink x).cfg = s.cfg := rfl
@[simp] theorem State.showBlink_tc (x : Bool) : (s.showBlink x).tc = s.tc := rfl
@[simp] theorem State.showBlink_secCnt (x : Bool) : (s.showBlink x).secCnt = s.secCnt := rfl
@[simp] theorem State.showBlink_scanCnt (x : Bool) : (s.showBlink x).scanCnt = s.scanCnt := rfl
@[simp] theorem State.showBlink_ph (x : Bool) : (s.showBlink x).ph = s.ph := rfl
@[simp] theorem State.showBlink_btnIh (x : Bool) : (s.showBlink x).btnIh = s.btnIh := rfl
@[simp] theorem State.showBlink_btnDh (x : Bool) : (s.showBlink x).btnDh = s.btnDh := rfl
@[simp] theorem State.showBlink_btnIm (x : Bool) : (s.showBlink x).btnIm = s.btnIm := rfl
@[simp] theorem State.showBlink_btnDm (x : Bool) : (s.showBlink x).btnDm = s.btnDm := rfl
@[simp] theorem State.showBlink_muxIdx (x : Bool) : (s.showBlink x).muxIdx = s.muxIdx := rfl
@[simp] theorem State.showBlink_ports (x : Bool) : (s.showBlink x).ports = s.ports := rfl
@[simp] theorem State.showBlink_stim (x : Bool) : (s.showBlink x).stim = s.stim := rfl
@[simp] theorem State.showBlink_draws (x : Bool) : (s.showBlink x).draws = s.draws := rfl
@[simp] theorem State.showBlink_out (x : Bool) : (s.showBlink x).out = { s.out with blink := x } := rfl

/-! ### `showFrame` -/

@[simp] theorem State.showFrame_cfg (x : Frame) : (s.showFrame x).cfg = s.cfg := rfl
@[simp] theorem State.showFrame_tc (x : Frame) : (s.showFrame x).tc = s.tc := rfl
@[simp] theorem State.showFrame_secCnt (x : Frame) : (s.showFrame x).secCnt = s.secCnt := rfl
@[simp] theorem State.showFrame_scanCnt (x : Frame) : (s.showFrame x).scanCnt = s.scanCnt := rfl
@[simp] theorem State.showFrame_ph (x : Frame) : (s.showFrame x).ph = s.ph := rfl
@[simp] theorem State.showFrame_btnIh (x : Frame) : (s.showFrame x).btnIh = s.btnIh := rfl
@[simp] theorem State.showFrame_btnDh (x : Frame) : (s.showFrame x).btnDh = s.btnDh := rfl
@[simp] theorem State.showFrame_btnIm (x : Frame) : (s.showFrame x).btnIm = s.btnIm := rfl
@[simp] theorem State.showFrame_btnDm (x : Frame) : (s.showFrame x).btnDm = s.btnDm := rfl
@[simp] theorem State.showFrame_muxIdx (x : Frame) : (s.showFrame x).muxIdx = s.muxIdx := rfl
@[simp] theorem State.showFrame_ports (x : Frame) : (s.showFrame x).ports = s.ports := rfl
@[simp] theorem State.showFrame_stim (x : Frame) : (s.showFrame x).stim = s.stim := rfl
@[simp] theorem State.showFrame_draws (x : Frame) : (s.showFrame x).draws = s.draws := rfl
@[simp] theorem State.showFrame_out (x : Frame) : (s.showFrame x).out = { s.out with frame := x } := rfl

/-! ### `setTime` -/

@[simp] theorem State.setTime_cfg (x : TimeValue) : (s.setTime x).cfg = s.cfg := rfl
@[simp] theorem State.setTime_secCnt (x : TimeValue) : (s.setTime x).secCnt = s.secCnt := rfl
@[simp] theorem State.setTime_scanCnt (x : TimeValue) : (s.setTime x).scanCnt = s.scanCnt := rfl
@[simp] theorem State.setTime_ph (x : TimeValue) : (s.setTime x).ph = s.ph := rfl
@[simp] theorem State.setTime_btnIh (x : TimeValue) : (s.setTime x).btnIh = s.btnIh := rfl
@[simp] theorem State.setTime_btnDh (x : TimeValue) : (s.setTime x).btnDh = s.btnDh := rfl
@[simp] theorem State.setTime_btnIm (x : TimeValue) : (s.setTime x).btnIm = s.btnIm := rfl
@[simp] theorem State.setTime_btnDm (x : TimeValue) : (s.setTime x).btnDm = s.btnDm := rfl
@[simp] theorem State.setTime_muxIdx (x : TimeValue) : (s.setTime x).muxIdx = s.muxIdx := rfl
@[simp] theorem State.setTime_ports (x : TimeValue) : (s.setTime x).ports = s.ports := rfl
@[simp] theorem State.setTime_out (x : TimeValue) : (s.setTime x).out = s.out := rfl
@[simp] theorem State.setTime_stim (x : TimeValue) : (s.setTime x).stim = s.stim := rfl
@[simp] theorem State.setTime_draws (x : TimeValue) : (s.setTime x).draws = s.draws := rfl
@[simp] theorem State.setTime_tc (x : TimeValue) : (s.setTime x).tc = x := rfl

/-! ### `setPhase` -/

@[simp] theorem State.setPhase_cfg (x : Nat) : (s.setPhase x).cfg = s.cfg := rfl
@[simp] theorem State.setPhase_tc (x : Nat) : (s.setPhase x).tc = s.tc := rfl
@[simp] theorem State.setPhase_secCnt (x : Nat) : (s.setPhase x).secCnt = s.secCnt := rfl
@[simp] theorem State.setPhase_scanCnt (x : Nat) : (s.setPhase x).scanCnt = s.scanCnt := rfl
@[simp] theorem State.setPhase_btnIh (x : Nat) : (s.setPhase x).btnIh = s.btnIh := rfl
@[simp] theorem State.setPhase_btnDh (x : Nat) : (s.setPhase x).btnDh = s.btnDh := rfl
@[simp] theorem State.setPhase_btnIm (x : Nat) : (s.setPhase x).btnIm = s.btnIm := rfl
@[simp] theorem State.setPhase_btnDm (x : Nat) : (s.setPhase x).btnDm = s.btnDm := rfl
@[simp] theorem State.setPhase_muxIdx (x : Nat) : (s.setPhase x).muxIdx = s.muxIdx := rfl
@[simp] theorem State.setPhase_ports (x : Nat) : (s.setPhase x).ports = s.ports := rfl
@[simp] theorem State.setPhase_out (x : Nat) : (s.setPhase x).out = s.out := rfl
@[simp] theorem State.setPhase_stim (x : Nat) : (s.setPhase x).stim = s.stim := rfl
@[simp] theorem State.setPhase_draws (x : Nat) : (s.setPhase x).draws = s.draws := rfl
@[simp] theorem State.setPhase_ph (x : Nat) : (s.setPhase x).ph = x := rfl

/-! ### `setIndex` -/

@[simp] theorem State.setIndex_cfg (x : Nat) : (s.setIndex x).cfg = s.cfg := rfl
@[simp] theorem State.setIndex_tc (x : Nat) : (s.setIndex x).tc = s.tc := rfl
@[simp] theorem State.setIndex_secCnt (x : Nat) : (s.setIndex x).secCnt = s.secCnt := rfl
@[simp] theorem State.setIndex_scanCnt (x : Nat) : (s.setIndex x).scanCnt = s.scanCnt := rfl
@[simp] theorem State.setIndex_ph (x : Nat) : (s.setIndex x).ph = s.ph := rfl
@[simp] theorem State.setIndex_btnIh (x : Nat) : (s.setIndex x).btnIh = s.btnIh := rfl
@[simp] theorem State.setIndex_btnDh (x : Nat) : (s.setIndex x).btnDh = s.btnDh := rfl
@[simp] theorem State.setIndex_btnIm (x : Nat) : (s.setIndex x).btnIm = s.btnIm := rfl
@[simp] theorem State.setIndex_btnDm (x : Nat) : (s.setIndex x).btnDm = s.btnDm := rfl
@[simp] theorem State.setIndex_ports (x : Nat) : (s.setIndex x).ports = s.ports := rfl
@[simp] theorem State.setIndex_out (x : Nat) : (s.setIndex x).out = s.out := rfl
@[simp] theorem State.setIndex_stim (x : Nat) : (s.setIndex x).stim = s.stim := rfl
@[simp] theorem State.setIndex_draws (x : Nat) : (s.setIndex x).draws = s.draws := rfl
@[simp] theorem State.setIndex_muxIdx (x : Nat) : (s.setIndex x).muxIdx = x := rfl

/-! ### `setPorts` -/

@[simp] theorem State.setPorts_cfg (x : MuxPorts) : (s.setPorts x).cfg = s.cfg := rfl
@[simp] theorem State.setPorts_tc (x : MuxPorts) : (s.setPorts x).tc = s.tc := rfl
@[simp] theorem State.setPorts_secCnt (x : MuxPorts) : (s.setPorts x).secCnt = s.secCnt := rfl
@[simp] theorem State.setPorts_scanCnt (x : MuxPorts) : (s.setPorts x).scanCnt = s.scanCnt := rfl
@[simp] theorem State.setPorts_ph (x : MuxPorts) : (s.setPorts x).ph = s.ph := rfl
@[simp] theorem State.setPorts_btnIh (x : MuxPorts) : (s.setPorts x).btnIh = s.btnIh := rfl
@[simp] theorem State.setPorts_btnDh (x : MuxPorts) : (s.setPorts x).btnDh = s.btnDh := rfl
@[simp] theorem State.setPorts_btnIm (x : MuxPorts) : (s.setPorts x).btnIm = s.btnIm := rfl
@[simp] theorem State.setPorts_btnDm (x : MuxPorts) : (s.setPorts x).btnDm = s.btnDm := rfl
@[simp] theorem State.setPorts_muxIdx (x : MuxPorts) : (s.setPorts x).muxIdx = s.muxIdx := rfl
@[simp] theorem State.setPorts_out (x : MuxPorts) : (s.setPorts x).out = s.out := rfl
@[simp] theorem State.setPorts_stim (x : MuxPorts) : (s.setPorts x).stim = s.stim := rfl
@[simp] theorem State.setPorts_draws (x : MuxPorts) : (s.setPorts x).draws = s.draws := rfl
@[simp] theorem State.setPorts_ports (x : MuxPorts) : (s.setPorts x).ports = x := rfl

/-! ### `lineUp` -/

@[simp] theorem State.lineUp_cfg (x : List Drive) : (s.lineUp x).cfg = s.cfg := rfl
@[simp] theorem State.lineUp_tc (x : List Drive) : (s.lineUp x).tc = s.tc := rfl
@[simp] theorem State.lineUp_secCnt (x : List Drive) : (s.lineUp x).secCnt = s.secCnt := rfl
@[simp] theorem State.lineUp_scanCnt (x : List Drive) : (s.lineUp x).scanCnt = s.scanCnt := rfl
@[simp] theorem State.lineUp_ph (x : List Drive) : (s.lineUp x).ph = s.ph := rfl
@[simp] theorem State.lineUp_btnIh (x : List Drive) : (s.lineUp x).btnIh = s.btnIh := rfl
@[simp] theorem State.lineUp_btnDh (x : List Drive) : (s.lineUp x).btnDh = s.btnDh := rfl
@[simp] theorem State.lineUp_btnIm (x : List Drive) : (s.lineUp x).btnIm = s.btnIm := rfl
@[simp] theorem State.lineUp_btnDm (x : List Drive) : (s.lineUp x).btnDm = s.btnDm := rfl
@[simp] theorem State.lineUp_muxIdx (x : List Drive) : (s.lineUp x).muxIdx = s.muxIdx := rfl
@[simp] theorem State.lineUp_ports (x : List Drive) : (s.lineUp x).ports = s.ports := rfl
@[simp] theorem State.lineUp_out (x : List Drive) : (s.lineUp x).out = s.out := rfl
@[simp] theorem State.lineUp_draws (x : List Drive) : (s.lineUp x).draws = s.draws := rfl
@[simp] theorem State.lineUp_stim (x : List Drive) : (s.lineUp x).stim = x ++ s.stim := rfl

/-! ### Reading an instance -/

@[simp] theorem State.tickCount_sec : s.tickCount .sec = s.secCnt := rfl
@[simp] theorem State.tickCount_scan : s.tickCount .scan = s.scanCnt := rfl
@[simp] theorem State.preload_sec : s.preload .sec = s.cfg.pT := rfl
@[simp] theorem State.preload_scan : s.preload .scan = s.cfg.pS := rfl
@[simp] theorem State.button_ih : s.button .ih = s.btnIh := rfl
@[simp] theorem State.button_dh : s.button .dh = s.btnDh := rfl
@[simp] theorem State.button_im : s.button .im = s.btnIm := rfl
@[simp] theorem State.button_dm : s.button .dm = s.btnDm := rfl
@[simp] theorem Outputs.button_ih (o : Outputs) : o.button .ih = o.ih := rfl
@[simp] theorem Outputs.button_dh (o : Outputs) : o.button .dh = o.dh := rfl
@[simp] theorem Outputs.button_im (o : Outputs) : o.button .im = o.im := rfl
@[simp] theorem Outputs.button_dm (o : Outputs) : o.button .dm = o.dm := rfl
@[simp] theorem Outputs.digits_h (o : Outputs) : o.digits .h = o.bcdH := rfl
@[simp] theorem Outputs.digits_m (o : Outputs) : o.digits .m = o.bcdM := rfl
@[simp] theorem Outputs.digits_s (o : Outputs) : o.digits .s = o.bcdS := rfl
@[simp] theorem Outputs.event_sec (o : Outputs) : o.event .sec = o.secEv := rfl
@[simp] theorem Outputs.event_scan (o : Outputs) : o.event .scan = o.scanEv := rfl

/-- Writing a TickGenerator's counter and reading it back. -/
theorem State.setTickCount_tickCount (g : TickGen) (x : Nat) : (s.setTickCount g x).tickCount g = x := by
  cases g <;> rfl

/-- Writing one TickGenerator's counter leaves the other's alone. -/
theorem State.setTickCount_other (g h : TickGen) (x : Nat) (ne : h ≠ g) :
    (s.setTickCount g x).tickCount h = s.tickCount h := by
  cases g <;> cases h <;> first | rfl | exact absurd rfl ne

/-- Writing a ButtonInput's registers and reading them back. -/
theorem State.setButton_button (b : Button) (x : ButtonRegs) : (s.setButton b x).button b = x := by
  cases b <;> rfl

/-- Writing one ButtonInput's registers leaves the others' alone. -/
theorem State.setButton_other (b c : Button) (x : ButtonRegs) (ne : c ≠ b) :
    (s.setButton b x).button c = s.button c := by
  cases b <;> cases c <;> first | rfl | exact absurd rfl ne

/-- Showing a ButtonInput's outputs and reading them back. -/
theorem State.showButton_button (b : Button) (x : ButtonOut) : (s.showButton b x).out.button b = x := by
  cases b <;> rfl

/-- Showing a converter's digits and reading them back. -/
theorem State.showDigits_digits (f : Converter) (x : DigitPair) : (s.showDigits f x).out.digits f = x := by
  cases f <;> rfl

/-- Showing a TickGenerator's event and reading it back. -/
theorem State.showEvent_event (g : TickGen) (x : Bool) : (s.showEvent g x).out.event g = x := by
  cases g <;> rfl

end

end Sys2Proof.Machine
end

