-- ==== Sys2Proof/Laws/Ops.lean ====
section
/-! SUPPORT. One lemma per shared operation that says all it can do, for the proofs to cite. -/

namespace Sys2Proof.Machine

/-! ### Outcomes -/

@[simp] theorem andThen_next (s : State) (f : State → Host.Outcome State Fault Refusal) :
    andThen (.next s) f = f s := rfl

@[simp] theorem andThen_refused (r : Refusal) (f : State → Host.Outcome State Fault Refusal) :
    andThen (.refused r) f = .refused r := rfl

/-- A sequence reaches a state exactly when its first part does and its second part goes on from there. -/
theorem andThen_eq_next {o : Host.Outcome State Fault Refusal} {f : State → Host.Outcome State Fault Refusal} {t : State} :
    andThen o f = .next t ↔ ∃ s, o = .next s ∧ f s = .next t := by
  cases o with
  | next s => simp [andThen]
  | fault r => exact nomatch r
  | refused r => simp [andThen]

theorem andThen_assoc (o : Host.Outcome State Fault Refusal) (f g : State → Host.Outcome State Fault Refusal) :
    andThen (andThen o f) g = andThen o (fun s => andThen (f s) g) := by
  cases o <;> rfl

/-! ### Arithmetic -/

theorem addMod_val {m : Nat} [NeZero m] (v : Fin m) (k : Int) :
    ((addMod v k).val : Int) = ((v.val : Int) + k) % (m : Int) := by
  have hm : (0 : Int) < (m : Int) := by
    have := NeZero.pos m
    omega
  have h0 := Int.emod_nonneg ((v.val : Int) + k) (ne_of_gt hm)
  have h1 := Int.emod_lt_of_pos ((v.val : Int) + k) hm
  simp only [addMod, Fin.val_ofNat]
  rw [Nat.mod_eq_of_lt (by omega)]
  omega

@[simp] theorem Delta.toInt_plus : Delta.plus.toInt = 1 := rfl
@[simp] theorem Delta.toInt_zero : Delta.zero.toInt = 0 := rfl
@[simp] theorem Delta.toInt_minus : Delta.minus.toInt = -1 := rfl

/-- The value and the carry of a unit step account for the delta exactly (R81). -/
theorem unitStep_balance {m : Nat} [NeZero m] (v : Fin m) (d : Delta) :
    ((unitStep v d).1.val : Int) + m * (unitStep v d).2.toInt = v.val + d.toInt := by
  have hv := v.isLt
  unfold unitStep
  split
  · next h =>
    obtain ⟨rfl, h⟩ := h
    simp only [Fin.val_ofNat, Nat.zero_mod, Delta.toInt_plus]
    omega
  · split
    · next h =>
      obtain ⟨rfl, h⟩ := h
      simp only [Fin.val_ofNat, Delta.toInt_minus]
      rw [Nat.mod_eq_of_lt (by omega)]
      omega
    · next h1 h2 =>
      have hp : d = .plus → v.val ≠ m - 1 := fun hd hm => h1 ⟨hd, hm⟩
      have hn : d = .minus → v.val ≠ 0 := fun hd hm => h2 ⟨hd, hm⟩
      rw [addMod_val, Delta.toInt_zero, mul_zero, add_zero, Int.emod_eq_of_lt] <;>
        cases d <;> simp only [Delta.toInt_plus, Delta.toInt_zero, Delta.toInt_minus] <;>
        first | (have := hp rfl; omega) | (have := hn rfl; omega) | omega

/-- The carry of a unit step (R81): the delta itself exactly when it leaves the unit's range. -/
theorem unitStep_carry {m : Nat} [NeZero m] (v : Fin m) (d : Delta) :
    (unitStep v d).2 = if (d = .plus ∧ v.val = m - 1) ∨ (d = .minus ∧ v.val = 0) then d else .zero := by
  unfold unitStep
  cases d <;> simp <;> split <;> simp_all

/-! ### Counters stay in range -/

theorem tickNext_le {preload cnt : Nat} (en : Bool) (h : cnt ≤ preload) : tickNext preload en cnt ≤ preload := by
  unfold tickNext
  split <;> [split; skip] <;> omega

theorem phaseNext_lt {bl bh : Nat} (ph : Nat) (h : 1 ≤ bl + bh) : phaseNext bl bh ph < bl + bh :=
  Nat.mod_lt _ (by omega)

theorem debounceNext_lt {w : Nat} (c : Nat) (i : Bool) (h : 2 ≤ w) : debounceNext w c i < 2 ^ w := by
  have h4 : 4 ≤ 2 ^ w := by
    calc 4 = 2 ^ 2 := rfl
      _ ≤ 2 ^ w := Nat.pow_le_pow_right (by decide) h
  unfold debounceNext
  split
  · split <;> omega
  · split
    · omega
    · exact Nat.mod_lt _ (by omega)

theorem indexNext_lt {n : Nat} (idx : Nat) (h : 1 ≤ n) : indexNext n idx < n := Nat.mod_lt _ (by omega)

/-- What a slot can send: its own constant, or a digit of at most 9. -/
theorem sourceDigit_cases (t : TimeValue) (src : DigitSource) :
    src = .const (sourceDigit t src) ∨ (sourceDigit t src).toNat ≤ 9 := by
  have hh := t.hours.isLt
  have hm := t.minutes.isLt
  have hs := t.seconds.isLt
  cases src
  case const => exact .inl rfl
  all_goals
    right
    simp only [sourceDigit, bcdPair, fieldOf, tensDigit, onesDigit, BitVec.toNat_ofNat]
    omega

/-- A source that gives decimal digits only sends no digit above 9. -/
theorem sourceDigit_le (t : TimeValue) (src : DigitSource) (h : sourceDecimal src = true) :
    (sourceDigit t src).toNat ≤ 9 := by
  rcases sourceDigit_cases t src with e | e
  · rw [e] at h
    exact of_decide_eq_true h
  · exact e

@[simp] theorem slotDigits_length (cfg : Config) (t : TimeValue) : (slotDigits cfg t).length = cfg.n := by
  simp [slotDigits, Config.n]

/-! ### Shared steps -/

/-- What a TickGenerator's step shows and writes. -/
theorem tickStep_sec (en : Bool) (s : State) :
    tickStep .sec en s =
      { s with secCnt := tickNext s.cfg.pT en s.secCnt, out := { s.out with secEv := tickEvent en s.secCnt } } := rfl

theorem tickStep_scan (en : Bool) (s : State) :
    tickStep .scan en s =
      { s with scanCnt := tickNext s.cfg.pS en s.scanCnt, out := { s.out with scanEv := tickEvent en s.scanCnt } } := rfl

/-- All that a ButtonInput's step writes and shows. -/
theorem buttonStep_spec (b : Button) (raw : Bool) (s : State) :
    (buttonStep b raw s).button b = buttonNext s.cfg.w (s.button b) raw ∧
      (buttonStep b raw s).out.button b = buttonOut (s.button b) ∧
      OnlyChanges (.button b) s (buttonStep b raw s) := by
  refine ⟨?_, ?_, ?_, ?_⟩
  · cases b <;> rfl
  · cases b <;> rfl
  · intro d ne
    cases d <;> cases b <;> first
      | rfl
      | exact ⟨rfl, rfl⟩
      | exact ⟨rfl, rfl, rfl, rfl⟩
      | (rename_i c; cases c <;> first | exact ⟨rfl, rfl⟩ | rfl | exact absurd rfl ne)
  · cases b <;> exact ⟨rfl, rfl, rfl, rfl⟩

/-- All that a debouncer's step writes and shows. -/
theorem debounceStep_spec (b : Button) (i : Bool) (s : State) :
    (debounceStep b i s).button b = { s.button b with c := debounceNext s.cfg.w (s.button b).c i } ∧
      (debounceStep b i s).out.button b = { s.out.button b with pressed := pulseOut (s.button b).c } ∧
      OnlyChanges (.button b) s (debounceStep b i s) := by
  refine ⟨?_, ?_, ?_, ?_⟩
  · cases b <;> rfl
  · cases b <;> rfl
  · intro d ne
    cases d <;> cases b <;> first
      | rfl
      | exact ⟨rfl, rfl⟩
      | exact ⟨rfl, rfl, rfl, rfl⟩
      | (rename_i c; cases c <;> first | exact ⟨rfl, rfl⟩ | rfl | exact absurd rfl ne)
  · cases b <;> exact ⟨rfl, rfl, rfl, rfl⟩

/-- The multiplexer's step answers a next state exactly when a slot is selected, and then this one. -/
theorem muxStep_eq_next {next : Nat} {s t : State} :
    muxStep next s = .next t ↔
      ∃ d, s.ports.digits[s.muxIdx]? = some d ∧
        t = { s with
          muxIdx := next
          scanCnt := tickNext s.cfg.pS true s.scanCnt
          out := { s.out with
            scanEv := tickEvent true s.scanCnt
            frame := muxFrame s.ports s.muxIdx d } } := by
  unfold muxStep
  split
  · next h => simp [h]
  · next d h =>
    simp only [h, Option.some.injEq, exists_eq_left', Host.Outcome.next.injEq]
    exact eq_comm

/-! ### Decoding and running words -/

/-- A word runs to a next state exactly when it decodes to an operation that does. -/
theorem runWord_eq_next {x : OpWord} {s t : State} :
    runWord x s = .next t ↔ ∃ i, decode x = .ok i ∧ exec i s = .next t := by
  unfold runWord
  split
  · next i h => simp [h]
  · next e h => simp [h]

@[simp] theorem runWords_nil (s : State) : runWords [] s = .next s := rfl

@[simp] theorem runWords_cons (x : OpWord) (xs : List OpWord) (s : State) :
    runWords (x :: xs) s = andThen (runWord x s) (runWords xs) := rfl

theorem runWords_append (xs ys : List OpWord) (s : State) :
    runWords (xs ++ ys) s = andThen (runWords xs s) (runWords ys) := by
  induction xs generalizing s with
  | nil => rfl
  | cons x xs ih =>
    simp only [List.cons_append, runWords_cons, andThen_assoc]
    congr 1
    funext t
    exact ih t

/-- The command word's five bits are the five signals wired to it (R103). -/
theorem commandOf_bits (inp : Inputs) (s : State) :
    (commandOf inp s).getLsbD 4 = tickEvent inp.tickEn s.secCnt ∧
      (commandOf inp s).getLsbD 3 = pulseOut s.btnIh.c ∧ (commandOf inp s).getLsbD 2 = pulseOut s.btnDh.c ∧
      (commandOf inp s).getLsbD 1 = pulseOut s.btnIm.c ∧ (commandOf inp s).getLsbD 0 = pulseOut s.btnDm.c := by
  unfold commandOf
  generalize tickEvent inp.tickEn s.secCnt = a
  generalize pulseOut s.btnIh.c = b
  generalize pulseOut s.btnDh.c = c
  generalize pulseOut s.btnIm.c = d
  generalize pulseOut s.btnDm.c = e
  revert a b c d e
  decide

/-! ### Driving -/

/-- What a cycle runs: the first entry of the stimulus, or a free draw of the block's inputs. -/
theorem fetch_lined (s : State) (d : Drive) (rest : List Drive) (h : s.stim = d :: rest) :
    fetch s = (d, { s with stim := rest }) := by
  simp [fetch, h]

theorem fetch_free (s : State) (h : s.stim = []) :
    fetch s = (.block (Config.freeInputs s.draws), { s with draws := s.draws + 1 }) := by
  simp [fetch, h]

/-! ### Runs -/

/-- A run of one step more, for any machine of the host's interface. -/
theorem host_run_succ (M : Host.Core) (k : Nat) (s : M.State) :
    M.run (k + 1) s = (match M.step s with
      | .next s' => M.run k s'
      | .fault r => .fault r
      | .refused r => .refused r) := rfl

/-- A run of one step more: the step, and the rest of the run from where it leads. -/
theorem core_run_succ (k : Nat) (s : State) :
    Sys2Proof.core.run (k + 1) s = andThen (step s) (Sys2Proof.core.run k) := by
  refine (host_run_succ Sys2Proof.core k s).trans ?_
  show _ = andThen (Sys2Proof.core.step s) (Sys2Proof.core.run k)
  rcases Sys2Proof.core.step s with t | r | r
  · rfl
  · exact nomatch (show Fault from r)
  · rfl

@[simp] theorem runBlock_nil (s : State) : runBlock [] s = .next s := rfl

/-- A run of the block over one input vector more: a cycle under the first, and the rest from where it leads. -/
theorem runBlock_cons (inp : Inputs) (ins : List Inputs) (s : State) :
    runBlock (inp :: ins) s =
      andThen (blockCycle inp (s.lineUp (ins.map .block))) (Sys2Proof.core.run ins.length) := by
  unfold runBlock
  rw [List.length_cons, core_run_succ]
  rfl

/-! ### Restart -/

/-- All a restart does: the state of a new construction, but for the environment's fields, which stay. -/
theorem restart_spec (s : State) (seed : TimeValue) :
    (restart s seed).stim = s.stim ∧ (restart s seed).draws = s.draws ∧
      { restart s seed with stim := [], draws := 0 } = State.init { s.cfg with seed := seed } := ⟨rfl, rfl, rfl⟩

end Sys2Proof.Machine
end

