-- ==== Sys2Proof/Laws/PerInstr.lean ====
section
/-! SUPPORT. Statements about every operation, one lemma per constructor. -/

namespace Sys2Proof.Laws

/-- The word of an operation has no bit at or above its format's width (R38, R48). -/
def EncodedWord.Statement (i : Instr) : Prop := (encode i).bits < 2 ^ i.port.width

theorem EncodedWord.tick : EncodedWord.Statement .tick := by simp [EncodedWord.Statement, encode, Instr.port, Port.width]
theorem EncodedWord.hold : EncodedWord.Statement .hold := by simp [EncodedWord.Statement, encode, Instr.port, Port.width]
theorem EncodedWord.incH : EncodedWord.Statement .incH := by simp [EncodedWord.Statement, encode, Instr.port, Port.width]
theorem EncodedWord.decH : EncodedWord.Statement .decH := by simp [EncodedWord.Statement, encode, Instr.port, Port.width]
theorem EncodedWord.incM : EncodedWord.Statement .incM := by simp [EncodedWord.Statement, encode, Instr.port, Port.width]
theorem EncodedWord.decM : EncodedWord.Statement .decM := by simp [EncodedWord.Statement, encode, Instr.port, Port.width]
theorem EncodedWord.incHIncM : EncodedWord.Statement .incHIncM := by simp [EncodedWord.Statement, encode, Instr.port, Port.width]
theorem EncodedWord.incHDecM : EncodedWord.Statement .incHDecM := by simp [EncodedWord.Statement, encode, Instr.port, Port.width]
theorem EncodedWord.decHIncM : EncodedWord.Statement .decHIncM := by simp [EncodedWord.Statement, encode, Instr.port, Port.width]
theorem EncodedWord.decHDecM : EncodedWord.Statement .decHDecM := by simp [EncodedWord.Statement, encode, Instr.port, Port.width]
theorem EncodedWord.tgDisabled (g : TickGen) : EncodedWord.Statement (.tgDisabled g) := by simp [EncodedWord.Statement, encode, Instr.port, Port.width]
theorem EncodedWord.tgEnabled (g : TickGen) : EncodedWord.Statement (.tgEnabled g) := by simp [EncodedWord.Statement, encode, Instr.port, Port.width]
theorem EncodedWord.pgStep : EncodedWord.Statement .pgStep := by simp [EncodedWord.Statement, encode, Instr.port, Port.width]
theorem EncodedWord.debIn0 (b : Button) : EncodedWord.Statement (.debIn0 b) := by simp [EncodedWord.Statement, encode, Instr.port, Port.width]
theorem EncodedWord.debIn1 (b : Button) : EncodedWord.Statement (.debIn1 b) := by simp [EncodedWord.Statement, encode, Instr.port, Port.width]
theorem EncodedWord.btnStep (b : Button) (raw : Bool) : EncodedWord.Statement (.btnStep b raw) := by cases raw <;> simp [EncodedWord.Statement, encode, Instr.port, Port.width]
theorem EncodedWord.bcdSplit (f : Converter) (v : BcdValue) : EncodedWord.Statement (.bcdSplit f v) := v.isLt
theorem EncodedWord.segEncode0 : EncodedWord.Statement .segEncode0 := by simp [EncodedWord.Statement, encode, Instr.port, Port.width]
theorem EncodedWord.segEncode1 : EncodedWord.Statement .segEncode1 := by simp [EncodedWord.Statement, encode, Instr.port, Port.width]
theorem EncodedWord.segEncode2 : EncodedWord.Statement .segEncode2 := by simp [EncodedWord.Statement, encode, Instr.port, Port.width]
theorem EncodedWord.segEncode3 : EncodedWord.Statement .segEncode3 := by simp [EncodedWord.Statement, encode, Instr.port, Port.width]
theorem EncodedWord.segEncode4 : EncodedWord.Statement .segEncode4 := by simp [EncodedWord.Statement, encode, Instr.port, Port.width]
theorem EncodedWord.segEncode5 : EncodedWord.Statement .segEncode5 := by simp [EncodedWord.Statement, encode, Instr.port, Port.width]
theorem EncodedWord.segEncode6 : EncodedWord.Statement .segEncode6 := by simp [EncodedWord.Statement, encode, Instr.port, Port.width]
theorem EncodedWord.segEncode7 : EncodedWord.Statement .segEncode7 := by simp [EncodedWord.Statement, encode, Instr.port, Port.width]
theorem EncodedWord.segEncode8 : EncodedWord.Statement .segEncode8 := by simp [EncodedWord.Statement, encode, Instr.port, Port.width]
theorem EncodedWord.segEncode9 : EncodedWord.Statement .segEncode9 := by simp [EncodedWord.Statement, encode, Instr.port, Port.width]
theorem EncodedWord.segEncodeA : EncodedWord.Statement .segEncodeA := by simp [EncodedWord.Statement, encode, Instr.port, Port.width]
theorem EncodedWord.segEncodeB : EncodedWord.Statement .segEncodeB := by simp [EncodedWord.Statement, encode, Instr.port, Port.width]
theorem EncodedWord.segEncodeC : EncodedWord.Statement .segEncodeC := by simp [EncodedWord.Statement, encode, Instr.port, Port.width]
theorem EncodedWord.segEncodeD : EncodedWord.Statement .segEncodeD := by simp [EncodedWord.Statement, encode, Instr.port, Port.width]
theorem EncodedWord.segEncodeE : EncodedWord.Statement .segEncodeE := by simp [EncodedWord.Statement, encode, Instr.port, Port.width]
theorem EncodedWord.segEncodeF : EncodedWord.Statement .segEncodeF := by simp [EncodedWord.Statement, encode, Instr.port, Port.width]
theorem EncodedWord.muxHold : EncodedWord.Statement .muxHold := by simp [EncodedWord.Statement, encode, Instr.port, Port.width]
theorem EncodedWord.muxAdvance : EncodedWord.Statement .muxAdvance := by simp [EncodedWord.Statement, encode, Instr.port, Port.width]

end Sys2Proof.Laws
end

