-- ==== Sys2Proof/Tests/Slice0.lean ====
section
/-! SUPPORT. Tests on words and vectors that the spec gives (95_test_vectors.md and the examples of the rules), and for each
statement with hypotheses a concrete case that meets them. -/

namespace Sys2Proof.Tests

open Sys2Proof Sys2Proof.Machine

/-! ### A small block -/

/-- The example map of R104. -/
def exampleMap : List DigitSource := [.s1, .s10, .m1, .m10, .h1, .h10, .const 0, .const 0]

/-- A small configuration: `P_T` = 3, `P_S` = 1, `BL` = 2, `BH` = 3, `W` = 3, the example map, seed 23:59:58. -/
def smallConfig : Config := ⟨3, 1, 2, 3, 3, exampleMap, ⟨23, 59, 58⟩, 0, 0⟩

/-- The small block after construction. -/
def small : State := State.init smallConfig

/-- Inputs with the tick enabled and every button released. -/
def quiet : Inputs := ⟨true, false, false, false, false, 0, 0⟩

/-- The small block at a given time. -/
def atTime (h : Fin 24) (m s : Fin 60) : State := { small with tc := ⟨h, m, s⟩ }

/-- The small block with the multiplexer's ports as V-MUX-6 to V-MUX-8 set them: slot 2 selected, its digit 4. -/
def atSlot (editing : Nat) (blink : Bool) : State :=
  { small with muxIdx := 2, ports := ⟨[0, 0, 4, 0, 0, 0, 0, 0], editing, 0b100, blink⟩ }

/-- What a test looks at in the state an outcome leads to, none where the outcome is a stop. -/
def seen {α : Type} (f : State → α) : Host.Outcome State Fault Refusal → Option α
  | .next t => some (f t)
  | .fault _ => none
  | .refused _ => none

/-- An outcome is a refusal of the given reason. -/
def refusedBy (r : Refusal) : Host.Outcome State Fault Refusal → Bool
  | .next _ => false
  | .fault _ => false
  | .refused q => q == r

/-! ### Well-formedness, and the refusals of the decoder -/

theorem test_wellFormed_refuses_bcd_100 : (Instr.bcdSplit .h 100).wellFormed = false := by decide

theorem test_wellFormed_refuses_bcd_127 : (Instr.bcdSplit .s 127).wellFormed = false := by decide

theorem test_wellFormed_accepts_bcd_99 : (Instr.bcdSplit .m 99).wellFormed = true := by decide

theorem test_decode_rejects_by_name :
    decode ⟨.bcd .h, 0b1100100⟩ = .error .bcdDomain ∧ decode ⟨.bcd .h, 0b1111111⟩ = .error .bcdDomain ∧
    decode ⟨.bcd .h, 0b10000000⟩ = .error .wordTooWide ∧ decode ⟨.tc, 0b100000⟩ = .error .wordTooWide ∧
    decode ⟨.pg, 0b1⟩ = .error .wordTooWide := ⟨rfl, rfl, rfl, rfl, rfl⟩

/-! ### Decoding, one word written out for each operation (R39, R41, R42) -/

/-- The rows of R41 in the table's order, each by a word it matches that is not its match value where it has one. -/
theorem test_decode_command_words :
    decode ⟨.tc, 0b11010⟩ = .ok .tick ∧ decode ⟨.tc, 0b00000⟩ = .ok .hold ∧ decode ⟨.tc, 0b01100⟩ = .ok .incH ∧
    decode ⟨.tc, 0b00100⟩ = .ok .decH ∧ decode ⟨.tc, 0b00011⟩ = .ok .incM ∧ decode ⟨.tc, 0b00001⟩ = .ok .decM ∧
    decode ⟨.tc, 0b01111⟩ = .ok .incHIncM ∧ decode ⟨.tc, 0b01101⟩ = .ok .incHDecM ∧
    decode ⟨.tc, 0b00111⟩ = .ok .decHIncM ∧ decode ⟨.tc, 0b00101⟩ = .ok .decHDecM := by
  refine ⟨rfl, rfl, rfl, rfl, rfl, rfl, rfl, rfl, rfl, rfl⟩

theorem test_decode_timebase_words :
    decode ⟨.tg .sec, 0b0⟩ = .ok (.tgDisabled .sec) ∧ decode ⟨.tg .scan, 0b1⟩ = .ok (.tgEnabled .scan) ∧
    decode ⟨.pg, 0⟩ = .ok .pgStep := ⟨rfl, rfl, rfl⟩

theorem test_decode_button_words :
    decode ⟨.deb .ih, 0b0⟩ = .ok (.debIn0 .ih) ∧ decode ⟨.deb .dh, 0b1⟩ = .ok (.debIn1 .dh) ∧
    decode ⟨.btn .im, 0b1⟩ = .ok (.btnStep .im true) ∧ decode ⟨.btn .dm, 0b0⟩ = .ok (.btnStep .dm false) :=
  ⟨rfl, rfl, rfl, rfl⟩

theorem test_decode_converter_word : decode ⟨.bcd .s, 0b1100011⟩ = .ok (.bcdSplit .s 99) := rfl

theorem test_decode_encoder_words :
    decode ⟨.seg, 0b0000⟩ = .ok .segEncode0 ∧ decode ⟨.seg, 0b0001⟩ = .ok .segEncode1 ∧
    decode ⟨.seg, 0b0010⟩ = .ok .segEncode2 ∧ decode ⟨.seg, 0b0011⟩ = .ok .segEncode3 ∧
    decode ⟨.seg, 0b0100⟩ = .ok .segEncode4 ∧ decode ⟨.seg, 0b0101⟩ = .ok .segEncode5 ∧
    decode ⟨.seg, 0b0110⟩ = .ok .segEncode6 ∧ decode ⟨.seg, 0b0111⟩ = .ok .segEncode7 ∧
    decode ⟨.seg, 0b1000⟩ = .ok .segEncode8 ∧ decode ⟨.seg, 0b1001⟩ = .ok .segEncode9 ∧
    decode ⟨.seg, 0b1010⟩ = .ok .segEncodeA ∧ decode ⟨.seg, 0b1011⟩ = .ok .segEncodeB ∧
    decode ⟨.seg, 0b1100⟩ = .ok .segEncodeC ∧ decode ⟨.seg, 0b1101⟩ = .ok .segEncodeD ∧
    decode ⟨.seg, 0b1110⟩ = .ok .segEncodeE ∧ decode ⟨.seg, 0b1111⟩ = .ok .segEncodeF := by
  refine ⟨rfl, rfl, rfl, rfl, rfl, rfl, rfl, rfl, rfl, rfl, rfl, rfl, rfl, rfl, rfl, rfl⟩

theorem test_decode_display_words :
    decode ⟨.mux, 0b0⟩ = .ok .muxHold ∧ decode ⟨.mux, 0b1⟩ = .ok .muxAdvance := ⟨rfl, rfl⟩

/-! ### Operations (95_test_vectors.md, part 2) -/

theorem test_tick_full_rollover : seen State.tc (exec .tick (atTime 23 59 59)) = some ⟨0, 0, 0⟩ := by decide
theorem test_tick_two_level_carry : seen State.tc (exec .tick (atTime 0 59 59)) = some ⟨1, 0, 0⟩ := by decide
theorem test_hold : seen State.tc (exec .hold (atTime 12 34 56)) = some ⟨12, 34, 56⟩ := by decide
theorem test_incH_wraps : seen State.tc (exec .incH (atTime 23 0 1)) = some ⟨0, 0, 1⟩ := by decide
theorem test_decH_wraps : seen State.tc (exec .decH (atTime 0 0 1)) = some ⟨23, 0, 1⟩ := by decide
theorem test_incM_carries : seen State.tc (exec .incM (atTime 23 59 3)) = some ⟨0, 0, 3⟩ := by decide
theorem test_decM_borrows : seen State.tc (exec .decM (atTime 0 0 3)) = some ⟨23, 59, 3⟩ := by decide
theorem test_incHIncM_carry : seen State.tc (exec .incHIncM (atTime 23 59 0)) = some ⟨1, 0, 0⟩ := by decide
theorem test_incHDecM_cancels : seen State.tc (exec .incHDecM (atTime 23 0 0)) = some ⟨23, 59, 0⟩ := by decide
theorem test_decHIncM_cancels : seen State.tc (exec .decHIncM (atTime 0 59 9)) = some ⟨0, 0, 9⟩ := by decide
theorem test_decHDecM_borrows : seen State.tc (exec .decHDecM (atTime 0 0 0)) = some ⟨22, 59, 0⟩ := by decide

/-- V-TG-4: a disabled generator at 0 shows no event and reloads. -/
theorem test_tgDisabled_at_zero :
    seen (fun t => (t.secCnt, t.out.secEv)) (exec (.tgDisabled .sec) { small with secCnt := 0 }) = some (3, false) := by
  decide

/-- V-TG-1, cycle 3: the event and the reload. -/
theorem test_tgEnabled_at_zero :
    seen (fun t => (t.secCnt, t.out.secEv)) (exec (.tgEnabled .sec) { small with secCnt := 0 }) = some (3, true) := by
  decide

/-- R53's second example: `cnt` = 2 gives no event and 1. -/
theorem test_tgEnabled_counts :
    seen (fun t => (t.secCnt, t.out.secEv)) (exec (.tgEnabled .sec) { small with secCnt := 2 }) = some (1, false) := by
  decide

/-- V-PG-1, cycles 1 and 4. -/
theorem test_pgStep_low :
    seen (fun t => (t.ph, t.out.blink)) (exec .pgStep { small with ph := 1 }) = some (2, false) := by decide
theorem test_pgStep_wraps :
    seen (fun t => (t.ph, t.out.blink)) (exec .pgStep { small with ph := 4 }) = some (0, true) := by decide

/-- V-DEB-3: the wrap, and the true input lost in the pulse cycle. -/
theorem test_debIn0_wraps :
    seen (fun t => (t.btnIh.c, t.out.ih.pressed))
      (exec (.debIn0 .ih) { small with btnIh := ⟨false, false, false, 7⟩ }) = some (0, false) := by decide
theorem test_debIn1_in_pulse_cycle :
    seen (fun t => (t.btnDh.c, t.out.dh.pressed))
      (exec (.debIn1 .dh) { small with btnDh := ⟨false, false, false, 0⟩ }) = some (1, true) := by decide
theorem test_debIn1_triggers :
    seen (fun t => (t.btnDh.c, t.out.dh.pressed)) (exec (.debIn1 .dh) small) = some (2, false) := by decide

/-- R66's example. -/
theorem test_btnStep_edge :
    seen (fun t => (t.btnIm, t.out.im)) (exec (.btnStep .im true) { small with btnIm := ⟨true, true, false, 1⟩ }) =
      some (⟨true, true, true, 2⟩, ⟨true, false⟩) := by decide

theorem test_bcdSplit_59 : seen (fun t => t.out.bcdS) (exec (.bcdSplit .s 59) small) = some ⟨5, 9⟩ := by decide
theorem test_bcdSplit_100_refused : refusedBy .bcdDomain (exec (.bcdSplit .s 100) small) = true := by decide

/-- V-SEG, the sixteen rows. -/
theorem test_segEncode_digits :
    [Instr.segEncode0, .segEncode1, .segEncode2, .segEncode3, .segEncode4, .segEncode5, .segEncode6, .segEncode7,
      .segEncode8, .segEncode9].map (fun i => seen (fun t => t.out.segment) (exec i small)) =
    [some 0x3F, some 0x06, some 0x5B, some 0x4F, some 0x66, some 0x6D, some 0x7D, some 0x07, some 0x7F, some 0x6F] := by
  decide
theorem test_segEncode_letters :
    [Instr.segEncodeA, .segEncodeB, .segEncodeC, .segEncodeD, .segEncodeE, .segEncodeF].map
      (fun i => seen (fun t => t.out.segment) (exec i small)) =
    [some 0x77, some 0x7C, some 0x58, some 0x5E, some 0x79, some 0x71] := by
  decide

/-- V-MUX-6 and V-MUX-7: the edited slot is blank while the blink is low, point and all. -/
theorem test_muxHold_blank :
    seen (fun t => (t.muxIdx, t.out.frame)) (exec .muxHold (atSlot 0b100 false)) =
      some (2, ⟨true, 2, 0b100, 0, false⟩) := by decide
theorem test_muxHold_blink_high :
    seen (fun t => (t.muxIdx, t.out.frame)) (exec .muxHold (atSlot 0b100 true)) =
      some (2, ⟨false, 2, 0b100, 0x66, true⟩) := by decide

/-- V-MUX-4: the outputs are slot 7's, the next index is 0. -/
theorem test_muxAdvance_wraps :
    seen (fun t => (t.muxIdx, t.out.frame.selIdx)) (exec .muxAdvance { small with muxIdx := 7 }) = some (0, 7) := by decide

/-! ### Steps -/

/-- A table word lined up is what the next step runs, also from reset. -/
theorem test_withFetchWord_tick : step (State.reset.withFetchWord 8 0b10000) = exec .tick State.reset := rfl
theorem test_withFetchWord_segment : step (State.reset.withFetchWord 8 0b1011) = exec .segEncodeB State.reset := rfl
theorem test_decodeTableWord : decodeTableWord 8 0b10000 = some .tick ∧ decodeTableWord 8 0b1011 = some .segEncodeB ∧
    decodeTableWord 0 0 = some .pgStep := ⟨rfl, rfl, rfl⟩

/-- R106 item 1, and tick priority: the event of the cycle is in the time of the next, a press beside it is lost. -/
theorem test_block_tick_cycle :
    seen (fun t => (t.tc, t.out.secEv, t.secCnt))
      (step { small with secCnt := 0, btnIh := ⟨false, false, false, 0⟩, stim := [.block quiet] }) =
        some (⟨23, 59, 59⟩, true, 3) := by decide

/-- A press without a tick: the hours take it (R103, R89). -/
theorem test_block_press_cycle :
    seen (fun t => (t.tc, t.out.ih.pressed, t.btnIh.c))
      (step { small with btnIh := ⟨false, false, false, 0⟩, stim := [.block quiet] }) =
        some (⟨0, 59, 58⟩, true, 1) := by decide

/-- A restart goes back to the reset registers with the fresh seed; the environment's draws go on (R119; log entry 27). -/
theorem test_restart :
    (restart { small with muxIdx := 5, secCnt := 0, draws := 7 } ⟨1, 2, 3⟩).muxIdx = 0 ∧
    (restart { small with muxIdx := 5, secCnt := 0, draws := 7 } ⟨1, 2, 3⟩).secCnt = 3 ∧
    (restart { small with muxIdx := 5, secCnt := 0, draws := 7 } ⟨1, 2, 3⟩).tc = ⟨1, 2, 3⟩ ∧
    (restart { small with muxIdx := 5, secCnt := 0, draws := 7 } ⟨1, 2, 3⟩).draws = 7 := by decide

/-- R45, R44: the observation words. -/
theorem test_observation_words : timeWord ⟨23, 59, 59⟩ = 0b10111111011111011 ∧ pairWord (bcdPair 59) = 0x59 := by decide

/-! ### Witnesses: concrete cases that meet the hypotheses of the statements -/

theorem test_small_inv : small.Inv := by decide

theorem test_witness_EncodedOperationsDecodeToThemselves : (Instr.bcdSplit .s 99).wellFormed = true := by decide

theorem test_witness_DecodedOperationsMatchTheWordRead :
    (decode ⟨.tc, 0b01100⟩ = .ok .incH ∧ (OpWord.mk .tc 0b01100).port = .tc) ∧
    (decode ⟨.bcd .h, 99⟩ = .ok (.bcdSplit .h 99) ∧ (OpWord.mk (.bcd .h) 99).port ≠ .tc) := by
  refine ⟨⟨rfl, rfl⟩, rfl, by decide⟩

theorem test_witness_OtherFormatsDecodeByTheirMap : (99 : Nat) ≤ 99 := by decide

/-- The boundaries: 31 and 32 at TimeCore, and 99, 100, 127, 128 at a converter fall under one clause at most. -/
theorem test_witness_OnlyWideWordsAndBcdOutsideItsDomainAreRejected :
    (¬ 2 ^ Port.tc.width ≤ 31 ∧ 2 ^ Port.tc.width ≤ 32) ∧
    (100 ≤ 100 ∧ 100 ≤ 127 ∧ 127 ≤ 127 ∧ ¬ 2 ^ (Port.bcd .h).width ≤ 127 ∧ 2 ^ (Port.bcd .h).width ≤ 128) := by
  decide

theorem test_witness_StepRunsTheDecodedOperation :
    (({ small with stim := [.alone ⟨.tc, 0b10000⟩] } : State).stim = .alone ⟨.tc, 0b10000⟩ :: [] ∧
      decode ⟨.tc, 0b10000⟩ = .ok .tick) ∧
    (({ small with stim := [.alone ⟨.tc, 32⟩] } : State).stim = .alone ⟨.tc, 32⟩ :: [] ∧
      decode ⟨.tc, 32⟩ = .error .wordTooWide) ∧
    (({ small with stim := [.alone ⟨.bcd .h, 100⟩] } : State).stim = .alone ⟨.bcd .h, 100⟩ :: [] ∧
      decode ⟨.bcd .h, 100⟩ = .error .bcdDomain) :=
  ⟨⟨rfl, rfl⟩, ⟨rfl, rfl⟩, rfl, rfl⟩

theorem test_witness_StepRunsOneBlockCycle :
    ({ small with stim := [.block quiet] } : State).stim = .block quiet :: [] ∧ small.stim = [] := ⟨rfl, rfl⟩

theorem test_witness_BlockCycleCommitsEveryRegisterFromTheSnapshot : { small with muxIdx := 7, secCnt := 0 }.Inv := by
  decide

theorem test_witness_OperationsOfDifferentComponentsCommute :
    componentOf (Instr.btnStep .ih true).port ≠ componentOf (Instr.btnStep .dh true).port ∧
    ∃ t, performAll [.btnStep .ih true, .btnStep .dh true] small = .next t := ⟨by decide, _, rfl⟩

theorem test_witness_OrderWithinACycleIsIrrelevant :
    small.Inv ∧ (cycleWords quiet small).reverse.Perm (cycleWords quiet small) ∧
      (cycleWords quiet small).reverse ≠ cycleWords quiet small :=
  ⟨by decide, List.reverse_perm _, by decide⟩

theorem test_witness_EveryStepKeepsTheInvariant :
    { small with stim := [.block quiet] }.Inv ∧ ∃ t, step { small with stim := [.block quiet] } = .next t :=
  ⟨by decide, _, rfl⟩

theorem test_witness_OperationsAreTotalButBcdOutsideItsDomain :
    small.Inv ∧ (Instr.bcdSplit .h 99).wellFormed = true ∧ (Instr.bcdSplit .h 100).wellFormed = false := by decide

theorem test_witness_NoCycleEverStops :
    { small with stim := [.alone ⟨.bcd .h, 99⟩] }.Inv ∧
    ∀ d ∈ ({ small with stim := [.alone ⟨.bcd .h, 99⟩] } : State).stim.head?, d.sound = true := by
  refine ⟨by decide, ?_⟩
  intro d hd
  cases hd
  rfl

theorem test_witness_RunsOfTheBlockNeverEnd : small.Inv ∧ [quiet, quiet].length = 2 := by decide

theorem test_witness_OperationsChangeOnlyTheirOwnComponent : ∃ t, exec .muxAdvance small = .next t := ⟨_, rfl⟩

theorem test_witness_StepsNeverChangeTheConfiguration :
    ∃ t, step { small with stim := [.alone ⟨.tc, 0b10000⟩] } = .next t := ⟨_, rfl⟩

theorem test_witness_TickAdvancesTheTime : (0b11111 : CommandWord) &&& 0b10000 = 0b10000 := by decide
theorem test_witness_HoldLeavesTheTimeUnchanged : (0b00000 : CommandWord) &&& 0b11111 = 0b00000 := by decide
theorem test_witness_IncHAddsOneHour : (0b01100 : CommandWord) &&& 0b11011 = 0b01000 := by decide
theorem test_witness_DecHTakesOneHour : (0b00100 : CommandWord) &&& 0b11111 = 0b00100 := by decide
theorem test_witness_IncMAddsOneMinute : (0b00011 : CommandWord) &&& 0b11110 = 0b00010 := by decide
theorem test_witness_DecMTakesOneMinute : (0b00001 : CommandWord) &&& 0b11111 = 0b00001 := by decide
theorem test_witness_IncHIncMAddsBoth : (0b01111 : CommandWord) &&& 0b11010 = 0b01010 := by decide
theorem test_witness_IncHDecMAddsAndTakes : (0b01101 : CommandWord) &&& 0b11011 = 0b01001 := by decide
theorem test_witness_DecHIncMTakesAndAdds : (0b00111 : CommandWord) &&& 0b11110 = 0b00110 := by decide
theorem test_witness_DecHDecMTakesBoth : (0b00101 : CommandWord) &&& 0b11111 = 0b00101 := by decide

theorem test_witness_IncrementWinsOverDecrement :
    (0b01111 : CommandWord).getLsbD 4 = false ∧ (0b01111 : CommandWord).getLsbD 3 = true ∧
    (0b01111 : CommandWord).getLsbD 2 = true ∧ (0b01111 : CommandWord).getLsbD 1 = true ∧
    (0b01111 : CommandWord).getLsbD 0 = true := by decide

theorem test_witness_TicksFromMidnightCountTheDay : (atTime 0 0 0).tc = ⟨0, 0, 0⟩ ∧ 86399 ≤ 86399 := by decide

theorem test_witness_PressesInATickCycleAreLost :
    { small with secCnt := 0, btnIh := ⟨false, false, false, 0⟩ }.Inv ∧ quiet.tickEn = true ∧
    { small with secCnt := 0, btnIh := ⟨false, false, false, 0⟩ }.secCnt = 0 := by decide

theorem test_witness_UntouchedClockKeepsTime :
    smallConfig.Valid ∧ ∀ inp ∈ List.replicate 8 quiet, inp.tickEn = true ∧ ∀ b, rawOf inp b = false := by
  refine ⟨by decide, ?_⟩
  intro inp h
  rw [List.eq_of_mem_replicate h]
  exact ⟨rfl, fun b => by cases b <;> rfl⟩

theorem test_witness_TickGeneratorFiresOncePerPeriod :
    small.tickCount .sec = small.preload .sec ∧ small.tickCount .scan = small.preload .scan ∧
    ∃ t, exec (.tgDisabled .sec) { small with secCnt := 1 } = .next t := ⟨rfl, rfl, _, rfl⟩

theorem test_witness_BlinkFollowsItsWaveform : smallConfig.Valid ∧ (List.replicate 6 quiet).length = 5 + 1 := by decide

theorem test_witness_DisablingTheTickRestartsTheSecond :
    { small with secCnt := 1 }.Inv ∧ { quiet with tickEn := false }.tickEn = false ∧
    (List.replicate 4 quiet).length = 3 + 1 ∧ ∀ inp ∈ List.replicate 4 quiet, inp.tickEn = true := by decide

theorem test_witness_DebouncerPulsesOncePerWindow :
    2 ≤ small.cfg.w ∧ (small.button .ih).c = 1 ∧ (List.replicate 7 true).length < 2 ^ small.cfg.w := by decide

theorem test_witness_EdgesFollowTheRawLineByTwoCycles : smallConfig.Valid ∧ [quiet] ≠ [] := by decide

/-- Also at the last cycle of the window, 2^`W` = 8. -/
theorem test_witness_PressesPulseAfterOneWindow :
    { small with btnIm := ⟨true, true, false, 1⟩ }.Inv ∧
    ({ small with btnIm := ⟨true, true, false, 1⟩ }.button .im).s2 = true ∧
    ({ small with btnIm := ⟨true, true, false, 1⟩ }.button .im).prev = false ∧
    ({ small with btnIm := ⟨true, true, false, 1⟩ }.button .im).c = 1 ∧
    1 ≤ (List.replicate 8 quiet).length ∧ (List.replicate 8 quiet).length ≤ 2 ^ small.cfg.w := by decide

theorem test_witness_HeldLinesPulseOnce :
    smallConfig.Valid ∧ (List.replicate 10 { quiet with rawIh := true }).length = (2 ^ smallConfig.w + 1) + 1 ∧
    ∀ inp ∈ List.replicate 10 { quiet with rawIh := true }, rawOf inp .ih = true := by decide

theorem test_witness_BcdSplitGivesTensAndOnes :
    (99 : BcdValue).toNat ≤ 99 ∧ 100 ≤ (100 : BcdValue).toNat ∧ 100 ≤ (127 : BcdValue).toNat := by decide

/-- The small block with one slot, of the given source. -/
def oneSlot (src : DigitSource) : State := State.init { smallConfig with slots := [src] }

/-- Words of each kind at the boundaries: a minute of 59, the constant 9 of a decimal map, the constant 10 of another. -/
theorem test_witness_DigitsOfATimeStayInRange :
    ⟨.bcd .m, 59⟩ ∈ cycleWords quiet (oneSlot (.const 9)) ∧
    (mapDecimal (oneSlot (.const 9)).cfg = true ∧ ⟨.seg, 9⟩ ∈ cycleWords quiet (oneSlot (.const 9)) ∧
      9 ∈ (portsOf quiet (oneSlot (.const 9))).digits) ∧
    (mapDecimal (oneSlot (.const 10)).cfg = false ∧ ⟨.seg, 10⟩ ∈ cycleWords quiet (oneSlot (.const 10)) ∧
      (portsOf quiet (oneSlot (.const 10))).digits[0]? = some 10) ∧
    (bcdPair (fieldOf .h ⟨23, 59, 58⟩)).tens.toNat = 2 := by decide

/-- A slot with the constant 15 shows the table's pattern of F (R104, R71). -/
theorem test_constant_slot_shows_F :
    seen (fun t => t.out.frame.seg) (blockCycle quiet (oneSlot (.const 15))) = some 0x71 := by decide

theorem test_witness_MuxHoldKeepsTheIndex :
    (atSlot 0b100 false).ports.digits[(atSlot 0b100 false).muxIdx]? = some 4 ∧
    (State.init { smallConfig with pS := 0 }).Inv ∧ (State.init { smallConfig with pS := 0 }).cfg.pS = 0 := by decide

theorem test_witness_MuxAdvanceMovesTheIndexOn :
    { small with muxIdx := 7 }.ports.digits[({ small with muxIdx := 7 } : State).muxIdx]? = some 0 := by decide

theorem test_witness_MuxRefusesWithoutASelectedSlot :
    { small with muxIdx := 8 }.ports.digits[({ small with muxIdx := 8 } : State).muxIdx]? = none := by decide

theorem test_witness_ScanVisitsTheSlotsInTurn : smallConfig.Valid ∧ (List.replicate 17 quiet).length = 16 + 1 := by decide

/-- Both clauses, at the phases on either side of `BL` = 2. -/
theorem test_witness_EditedSlotsBlankWhileTheBlinkIsLow :
    { small with ph := 1 }.Inv ∧ { small with ph := 2 }.Inv ∧ small.cfg.slots[small.muxIdx]? = some .s1 ∧
    (Nat.testBit 1 small.muxIdx = true ∧ 1 < small.cfg.bl) ∧ ¬(Nat.testBit 1 small.muxIdx = true ∧ 2 < small.cfg.bl) := by
  decide

/-- A request that passes every check at its bounds. -/
def goodRequest : ConfigRequest := ⟨1, 1, 0, 1, 2, [.s1], 23, 59, 59, 0, 0, .atomic⟩

theorem test_witness_ConstructionGivesTheResetValues :
    (∃ s, construct goodRequest = .ok s) ∧ small.cfg.Valid := ⟨⟨_, rfl⟩, by decide⟩

theorem test_witness_ConstructionRefusesExactlyTheFailingConfigurations :
    goodRequest.policy = .atomic ∧
    construct { goodRequest with tickCycles := 0 } = .error .tickPreload ∧
    construct { goodRequest with scanCycles := 0 } = .error .scanPreload ∧
    construct { goodRequest with slots := [] } = .error .digitsZero ∧
    construct { goodRequest with bh := 0 } = .error .blinkPeriod ∧
    construct { goodRequest with w := 1 } = .error .debounceWidth ∧
    construct { goodRequest with seedHours := 24 } = .error .seedRange ∧
    construct { goodRequest with policy := .sequential } = .error .advancePolicy :=
  ⟨rfl, rfl, rfl, rfl, rfl, rfl, rfl, rfl⟩

theorem test_witness_OutputsInTheFirstCycle : smallConfig.Valid ∧ { smallConfig with pT := 0, pS := 0, bl := 0 }.Valid := by
  decide

end Sys2Proof.Tests
end

section
/-! The family 00_scope.md: how a step gets the cycle it runs, and what no step changes. -/

namespace Sys2Proof.Machine

/-! ### What the environment keeps through an operation -/

/-- Two states have the same construction parameters and the same inputs still to come: the fields no operation writes,
whatever component it belongs to (R6, R7). -/
def SameEnvironment (s t : State) : Prop := t.cfg = s.cfg ∧ t.stim = s.stim ∧ t.draws = s.draws

theorem SameEnvironment.cfg_eq {s t : State} (h : SameEnvironment s t) : t.cfg = s.cfg := h.1

theorem SameEnvironment.refl (s : State) : SameEnvironment s s := ⟨rfl, rfl, rfl⟩

theorem SameEnvironment.trans {s t u : State} (hst : SameEnvironment s t) (htu : SameEnvironment t u) :
    SameEnvironment s u := by
  obtain ⟨hcfg, hstim, hdraws⟩ := hst
  obtain ⟨hcfg', hstim', hdraws'⟩ := htu
  exact ⟨hcfg'.trans hcfg, hstim'.trans hstim, hdraws'.trans hdraws⟩

theorem OnlyChanges.sameEnvironment {c : Component} {s t : State} (h : OnlyChanges c s t) : SameEnvironment s t := by
  obtain ⟨_, hcfg, _, hstim, hdraws⟩ := h
  exact ⟨hcfg, hstim, hdraws⟩

theorem tickStep_sameEnvironment (g : TickGen) (en : Bool) (s : State) : SameEnvironment s (tickStep g en s) := by
  simp [SameEnvironment, tickStep]

theorem debounceStep_sameEnvironment (b : Button) (i : Bool) (s : State) : SameEnvironment s (debounceStep b i s) := by
  obtain ⟨_, _, hframe⟩ := debounceStep_spec b i s
  exact hframe.sameEnvironment

theorem buttonStep_sameEnvironment (b : Button) (raw : Bool) (s : State) :
    SameEnvironment s (buttonStep b raw s) := by
  obtain ⟨_, _, hframe⟩ := buttonStep_spec b raw s
  exact hframe.sameEnvironment

theorem muxStep_sameEnvironment {next : Nat} {s t : State} (h : muxStep next s = .next t) : SameEnvironment s t := by
  obtain ⟨_, _, rfl⟩ := muxStep_eq_next.mp h
  exact .refl s

theorem execBcdSplit_sameEnvironment {f : Converter} {v : BcdValue} {s t : State} (h : execBcdSplit f v s = .next t) :
    SameEnvironment s t := by
  unfold execBcdSplit at h
  split at h
  · cases h
    simp [SameEnvironment]
  · cases h

/-- No operation of any component writes a parameter or touches what the environment drives. -/
theorem exec_sameEnvironment {i : Instr} {s t : State} (h : exec i s = .next t) : SameEnvironment s t := by
  cases i with
  | tgDisabled g | tgEnabled g => cases h; exact tickStep_sameEnvironment g _ s
  | debIn0 b | debIn1 b => cases h; exact debounceStep_sameEnvironment b _ s
  | btnStep b raw => cases h; exact buttonStep_sameEnvironment b raw s
  | bcdSplit f v => exact execBcdSplit_sameEnvironment h
  | muxHold | muxAdvance => exact muxStep_sameEnvironment h
  | tick | hold | incH | decH | incM | decM | incHIncM | incHDecM | decHIncM | decHDecM => cases h; exact .refl s
  | pgStep => cases h; exact .refl s
  | segEncode0 | segEncode1 | segEncode2 | segEncode3 | segEncode4 | segEncode5 | segEncode6 | segEncode7
  | segEncode8 | segEncode9 | segEncodeA | segEncodeB | segEncodeC | segEncodeD | segEncodeE | segEncodeF =>
    cases h; exact .refl s

theorem runWord_sameEnvironment {x : OpWord} {s t : State} (h : runWord x s = .next t) : SameEnvironment s t := by
  obtain ⟨_, _, hexec⟩ := runWord_eq_next.mp h
  exact exec_sameEnvironment hexec

theorem runWords_sameEnvironment {xs : List OpWord} {s t : State} (h : runWords xs s = .next t) :
    SameEnvironment s t := by
  induction xs generalizing s with
  | nil => cases h; exact .refl _
  | cons x xs ih =>
    obtain ⟨u, hfirst, hrest⟩ := andThen_eq_next.mp h
    exact (runWord_sameEnvironment hfirst).trans (ih hrest)

/-- Sampling the multiplexer's ports is no write to the environment, and the words of the cycle make none. -/
theorem blockCycle_sameEnvironment {inp : Inputs} {s t : State} (h : blockCycle inp s = .next t) :
    SameEnvironment s t :=
  have hports : SameEnvironment s (s.setPorts (portsOf inp s)) := ⟨rfl, rfl, rfl⟩
  hports.trans (runWords_sameEnvironment h)

theorem runDrive_sameEnvironment {d : Drive} {s t : State} (h : runDrive d s = .next t) : SameEnvironment s t := by
  cases d with
  | alone x => exact runWord_sameEnvironment h
  | block inp => exact blockCycle_sameEnvironment h

/-! ### The cycle a step runs -/

theorem step_of_lined {s : State} {d : Drive} {rest : List Drive} (h : s.stim = d :: rest) :
    step s = runDrive d { s with stim := rest } := by
  rw [step, fetch_lined s d rest h]

theorem step_of_free {s : State} (h : s.stim = []) :
    step s = blockCycle (Config.freeInputs s.draws) { s with draws := s.draws + 1 } := by
  rw [step, fetch_free s h]
  rfl

/-! ### The obligations -/

/-- Settles O9: the two ways the inputs of a block cycle are fetched. -/
theorem stepRunsOneBlockCycle : Obligations.StepRunsOneBlockCycle :=
  ⟨fun _ _ _ hstim => step_of_lined hstim, fun _ hstim => step_of_free hstim⟩

/-- Settles O19: fetching takes an entry or a draw only, and what then runs keeps the environment's fields. -/
theorem stepsNeverChangeTheConfiguration : Obligations.StepsNeverChangeTheConfiguration := by
  intro s t h
  cases hstim : s.stim with
  | nil =>
    rw [step_of_free hstim] at h
    exact (blockCycle_sameEnvironment h).cfg_eq
  | cons d rest =>
    rw [step_of_lined hstim] at h
    exact (runDrive_sameEnvironment h).cfg_eq

end Sys2Proof.Machine
end

section
/-! The family 10_state.md: every register in its range, every register written by its own component only, outputs
that are no registers, and the reset values construction gives. -/

namespace Sys2Proof.Machine

/-! ### BCD_SPLIT -/

/-- The one operation with a domain answers a next state exactly inside it, and then this one (R69). -/
theorem execBcdSplit_eq_next {f : Converter} {v : BcdValue} {s t : State} :
    execBcdSplit f v s = .next t ↔ BcdValue.inDomain v = true ∧ t = s.showDigits f (bcdPair v.toNat) := by
  unfold execBcdSplit
  split
  · next hv => simp [hv, eq_comm]
  · next hv => simp [hv]

/-! ### The invariant under each write of the state -/

section
variable {s : State}

theorem State.Inv.valid (h : s.Inv) : s.cfg.Valid := h.1

theorem State.Inv.tickCount_le (h : s.Inv) (g : TickGen) : s.tickCount g ≤ s.preload g := by
  obtain ⟨_, hsec, hscan, _⟩ := h
  cases g
  · exact hsec
  · exact hscan

theorem State.Inv.muxIdx_lt (h : s.Inv) : s.muxIdx < s.cfg.n := by
  obtain ⟨_, _, _, _, _, _, _, _, hidx, _⟩ := h
  exact hidx

theorem State.Inv.setTickCount (h : s.Inv) {g : TickGen} {x : Nat} (hx : x ≤ s.preload g) :
    (s.setTickCount g x).Inv := by
  obtain ⟨hvalid, hsec, hscan, hrest⟩ := h
  cases g
  · exact ⟨hvalid, hx, hscan, hrest⟩
  · exact ⟨hvalid, hsec, hx, hrest⟩

theorem State.Inv.setButton (h : s.Inv) (b : Button) {r : ButtonRegs} (hr : r.c < 2 ^ s.cfg.w) :
    (s.setButton b r).Inv := by
  obtain ⟨hvalid, hsec, hscan, hph, hih, hdh, him, hdm, hrest⟩ := h
  cases b
  · exact ⟨hvalid, hsec, hscan, hph, hr, hdh, him, hdm, hrest⟩
  · exact ⟨hvalid, hsec, hscan, hph, hih, hr, him, hdm, hrest⟩
  · exact ⟨hvalid, hsec, hscan, hph, hih, hdh, hr, hdm, hrest⟩
  · exact ⟨hvalid, hsec, hscan, hph, hih, hdh, him, hr, hrest⟩

theorem State.Inv.setPhase (h : s.Inv) {ph : Nat} (hph : ph < s.cfg.bl + s.cfg.bh) : (s.setPhase ph).Inv := by
  obtain ⟨hvalid, hsec, hscan, _, hrest⟩ := h
  exact ⟨hvalid, hsec, hscan, hph, hrest⟩

theorem State.Inv.setIndex (h : s.Inv) {idx : Nat} (hidx : idx < s.cfg.n) : (s.setIndex idx).Inv := by
  obtain ⟨hvalid, hsec, hscan, hph, hih, hdh, him, hdm, _, hports⟩ := h
  exact ⟨hvalid, hsec, hscan, hph, hih, hdh, him, hdm, hidx, hports⟩

theorem State.Inv.setPorts (h : s.Inv) {p : MuxPorts} (hp : p.digits.length = s.cfg.n) : (s.setPorts p).Inv := by
  obtain ⟨hvalid, hsec, hscan, hph, hih, hdh, him, hdm, hidx, _⟩ := h
  exact ⟨hvalid, hsec, hscan, hph, hih, hdh, him, hdm, hidx, hp⟩

theorem State.Inv.showEvent (h : s.Inv) (g : TickGen) (ev : Bool) : (s.showEvent g ev).Inv := by
  cases g <;> exact h

theorem State.Inv.showButton (h : s.Inv) (b : Button) (o : ButtonOut) : (s.showButton b o).Inv := by
  cases b <;> exact h

theorem State.Inv.showDigits (h : s.Inv) (f : Converter) (p : DigitPair) : (s.showDigits f p).Inv := by
  cases f <;> exact h

/-! ### The invariant under each shared step -/

theorem tickStep_inv (h : s.Inv) (g : TickGen) (en : Bool) : (tickStep g en s).Inv := by
  have hnext : tickNext (s.preload g) en (s.tickCount g) ≤ s.preload g := tickNext_le en (h.tickCount_le g)
  refine (h.showEvent g _).setTickCount ?_
  cases g <;> exact hnext

theorem debounceStep_inv (h : s.Inv) (b : Button) (i : Bool) : (debounceStep b i s).Inv := by
  obtain ⟨_, hwidth, _⟩ := h.valid
  refine (h.showButton b _).setButton b ?_
  rw [State.showButton_cfg]
  exact debounceNext_lt _ i hwidth

theorem buttonStep_inv (h : s.Inv) (b : Button) (raw : Bool) : (buttonStep b raw s).Inv := by
  obtain ⟨_, hwidth, _⟩ := h.valid
  refine (h.showButton b _).setButton b ?_
  rw [State.showButton_cfg]
  exact debounceNext_lt _ _ hwidth

theorem execPgStep_inv {t : State} (h : s.Inv) (hexec : execPgStep s = .next t) : t.Inv := by
  obtain ⟨hperiod, _⟩ := h.valid
  cases hexec
  exact State.Inv.setPhase (s := s.showBlink _) h (phaseNext_lt s.ph hperiod)

theorem muxStep_inv {next : Nat} {t : State} (h : s.Inv) (hnext : next < s.cfg.n) (hmux : muxStep next s = .next t) :
    t.Inv := by
  obtain ⟨d, _, rfl⟩ := muxStep_eq_next.mp hmux
  exact (tickStep_inv h .scan true).setIndex hnext

/-- Every operation of every component keeps the invariant. -/
theorem exec_inv {i : Instr} {s t : State} (h : s.Inv) (hexec : exec i s = .next t) : t.Inv := by
  cases i with
  | tgDisabled g | tgEnabled g => cases hexec; exact tickStep_inv h g _
  | pgStep => exact execPgStep_inv h hexec
  | debIn0 b | debIn1 b => cases hexec; exact debounceStep_inv h b _
  | btnStep b raw => cases hexec; exact buttonStep_inv h b raw
  | bcdSplit f v =>
    obtain ⟨_, rfl⟩ := execBcdSplit_eq_next.mp hexec
    exact h.showDigits f _
  | muxHold => exact muxStep_inv h h.muxIdx_lt hexec
  | muxAdvance =>
    obtain ⟨_, _, hslots⟩ := h.valid
    exact muxStep_inv h (indexNext_lt s.muxIdx hslots) hexec
  | tick | hold | incH | decH | incM | decM | incHIncM | incHDecM | decHIncM | decHDecM => cases hexec; exact h
  | segEncode0 | segEncode1 | segEncode2 | segEncode3 | segEncode4 | segEncode5 | segEncode6 | segEncode7
  | segEncode8 | segEncode9 | segEncodeA | segEncodeB | segEncodeC | segEncodeD | segEncodeE | segEncodeF =>
    cases hexec; exact h

end

/-! ### The invariant over a cycle -/

/-- What every operation keeps, a sequence of operation words keeps. -/
theorem runWords_keeps {P : State → Prop} (hkeeps : ∀ {i : Instr} {s t : State}, P s → exec i s = .next t → P t)
    {xs : List OpWord} {s t : State} (h : P s) (hrun : runWords xs s = .next t) : P t := by
  induction xs generalizing s with
  | nil => cases hrun; exact h
  | cons x xs ih =>
    obtain ⟨u, hfirst, hrest⟩ := andThen_eq_next.mp hrun
    obtain ⟨i, _, hexec⟩ := runWord_eq_next.mp hfirst
    exact ih (hkeeps h hexec) hrest

theorem blockCycle_inv {inp : Inputs} {s t : State} (h : s.Inv) (hcycle : blockCycle inp s = .next t) : t.Inv :=
  have hports : (portsOf inp s).digits.length = s.cfg.n := slotDigits_length s.cfg s.tc
  runWords_keeps exec_inv (h.setPorts hports) hcycle

theorem runDrive_inv {d : Drive} {s t : State} (h : s.Inv) (hdrive : runDrive d s = .next t) : t.Inv := by
  cases d with
  | alone x =>
    obtain ⟨i, _, hexec⟩ := runWord_eq_next.mp hdrive
    exact exec_inv h hexec
  | block inp => exact blockCycle_inv h hdrive

/-- Settles O13: taking an entry or a draw off writes no register, and the cycle that then runs keeps the invariant,
operation by operation. -/
theorem everyStepKeepsTheInvariant : Obligations.EveryStepKeepsTheInvariant := by
  intro s t h hstep
  have hfetched : (fetch s).2.Inv := by
    cases hstim : s.stim with
    | nil => rw [fetch_free s hstim]; exact h
    | cons d rest => rw [fetch_lined s d rest hstim]; exact h
  exact runDrive_inv hfetched hstep

/-! ### Each operation writes its own component

In each frame below the written component is excluded; every other component's registers and outputs are untouched by
definition, which is what `trivial` closes. -/

/-- Showing one converter's digits leaves the others' alone. -/
theorem State.showDigits_other (s : State) (f g : Converter) (p : DigitPair) (hne : g ≠ f) :
    (s.showDigits f p).out.digits g = s.out.digits g := by
  cases f <;> cases g <;> trivial

theorem setTime_onlyChanges (x : TimeValue) (s : State) : OnlyChanges .timeCore s (s.setTime x) := by
  refine ⟨fun d hne => ?_, rfl, rfl, rfl, rfl⟩
  cases d with
  | timeCore => exact absurd rfl hne
  | _ => trivial

theorem tickStep_onlyChanges (g : TickGen) (en : Bool) (s : State) :
    OnlyChanges (componentOf (.tg g)) s (tickStep g en s) := by
  cases g with
  | sec =>
    refine ⟨fun d hne => ?_, rfl, rfl, rfl, rfl⟩
    cases d with
    | seconds => exact absurd rfl hne
    | _ => trivial
  | scan =>
    refine ⟨fun d hne => ?_, rfl, rfl, rfl, rfl⟩
    cases d with
    | display => exact absurd rfl hne
    | _ => trivial

theorem execPgStep_onlyChanges {s t : State} (h : execPgStep s = .next t) : OnlyChanges .pulse s t := by
  cases h
  refine ⟨fun d hne => ?_, rfl, rfl, rfl, rfl⟩
  cases d with
  | pulse => exact absurd rfl hne
  | _ => trivial

theorem showDigits_onlyChanges (f : Converter) (p : DigitPair) (s : State) :
    OnlyChanges (.converter f) s (s.showDigits f p) := by
  refine ⟨fun d hne => ?_, by simp, by simp, by simp, by simp⟩
  cases d with
  | converter g => exact s.showDigits_other f g p fun heq => hne (congrArg Component.converter heq)
  | _ => cases f <;> trivial

theorem segmentStep_onlyChanges (x : Digit) (s : State) : OnlyChanges .encoder s (segmentStep x s) := by
  refine ⟨fun d hne => ?_, rfl, rfl, rfl, rfl⟩
  cases d with
  | encoder => exact absurd rfl hne
  | _ => trivial

theorem muxStep_onlyChanges {next : Nat} {s t : State} (h : muxStep next s = .next t) : OnlyChanges .display s t := by
  obtain ⟨_, _, rfl⟩ := muxStep_eq_next.mp h
  refine ⟨fun d hne => ?_, rfl, rfl, rfl, rfl⟩
  cases d with
  | display => exact absurd rfl hne
  | _ => trivial

/-- Settles O18: the shared step of each family, at the port that reads the word, writes that component only. -/
theorem operationsChangeOnlyTheirOwnComponent : Obligations.OperationsChangeOnlyTheirOwnComponent := by
  intro i s t h
  cases i with
  | tgDisabled g | tgEnabled g => cases h; exact tickStep_onlyChanges g _ s
  | pgStep => exact execPgStep_onlyChanges h
  | debIn0 b | debIn1 b =>
    cases h
    obtain ⟨_, _, hframe⟩ := debounceStep_spec b _ s
    exact hframe
  | btnStep b raw =>
    cases h
    obtain ⟨_, _, hframe⟩ := buttonStep_spec b raw s
    exact hframe
  | bcdSplit f v =>
    obtain ⟨_, rfl⟩ := execBcdSplit_eq_next.mp h
    exact showDigits_onlyChanges f _ s
  | muxHold | muxAdvance => exact muxStep_onlyChanges h
  | tick | hold | incH | decH | incM | decM | incHIncM | incHDecM | decHIncM | decHDecM =>
    cases h; exact setTime_onlyChanges _ s
  | segEncode0 | segEncode1 | segEncode2 | segEncode3 | segEncode4 | segEncode5 | segEncode6 | segEncode7
  | segEncode8 | segEncode9 | segEncodeA | segEncodeB | segEncodeC | segEncodeD | segEncodeE | segEncodeF =>
    cases h; exact segmentStep_onlyChanges _ s

/-! ### The multiplexer without a selected slot -/

theorem muxStep_of_noSlot {s : State} (next : Nat) (h : s.ports.digits[s.muxIdx]? = none) :
    muxStep next s = .refused .selectOutOfRange := by
  simp [muxStep, h]

/-- Settles O55: both operations are the multiplexer's shared step, whose next index plays no part in the refusal. -/
theorem muxRefusesWithoutASelectedSlot : Obligations.MuxRefusesWithoutASelectedSlot :=
  fun s h => ⟨muxStep_of_noSlot s.muxIdx h, muxStep_of_noSlot (indexNext s.cfg.n s.muxIdx) h⟩

/-! ### What each word of a cycle runs -/

theorem decode_commandWord (w : CommandWord) : decode ⟨.tc, w.toNat⟩ = .ok (decodeCommand w) := by
  have hwidth : ¬ 2 ^ Port.tc.width ≤ w.toNat := Nat.not_le.mpr w.isLt
  simp [decode, hwidth]

theorem exec_adjustOp (hd md : Delta) (s : State) :
    exec (adjustOp hd md) s = .next (s.setTime (adjustTime hd md s.tc)) := by
  cases hd <;> cases md <;> rfl

/-- The TimeValue a command word makes of another: the tick alone, or both requests (R40, R84). -/
def commandTime (w : CommandWord) (t : TimeValue) : TimeValue :=
  if w.getLsbD 4 then tickTime t else adjustTime (hoursDelta w) (minutesDelta w) t

theorem runWord_command (w : CommandWord) (s : State) :
    runWord ⟨.tc, w.toNat⟩ s = .next (s.setTime (commandTime w s.tc)) := by
  simp only [runWord, decode_commandWord, decodeCommand, commandTime]
  split
  · rfl
  · exact exec_adjustOp _ _ s

theorem runWord_tickGen (g : TickGen) (en : Bool) (s : State) :
    runWord ⟨.tg g, en.toNat⟩ s = .next (tickStep g en s) := by
  cases en <;> simp [runWord, decode, Port.width, exec, execTgDisabled, execTgEnabled]

theorem runWord_pulse (s : State) :
    runWord ⟨.pg, 0⟩ s =
      .next ((s.showBlink (blinkLevel s.cfg.bl s.ph)).setPhase (phaseNext s.cfg.bl s.cfg.bh s.ph)) :=
  rfl

theorem runWord_button (b : Button) (raw : Bool) (s : State) :
    runWord ⟨.btn b, raw.toNat⟩ s = .next (buttonStep b raw s) := by
  cases raw <;> simp [runWord, decode, Port.width, exec, execBtnStep]

theorem runWord_converter (f : Converter) {v : Nat} (hv : v ≤ 99) (s : State) :
    runWord ⟨.bcd f, v⟩ s = .next (s.showDigits f (bcdPair v)) := by
  have hmod : v % 128 = v := Nat.mod_eq_of_lt (by omega)
  have hwidth : ¬ 128 ≤ v := by omega
  simp [runWord, decode, Port.width, BcdValue.inDomain, exec, execBcdSplit, hmod, hv, hwidth]

theorem exec_decodeSegment (d : Digit) (s : State) : exec (decodeSegment d) s = .next (segmentStep d s) := by
  obtain ⟨⟨v, hv⟩⟩ := d
  interval_cases v <;> rfl

theorem runWord_segment (d : Digit) (s : State) : runWord ⟨.seg, d.toNat⟩ s = .next (segmentStep d s) := by
  have hwidth : ¬ 2 ^ Port.seg.width ≤ d.toNat := Nat.not_le.mpr d.isLt
  simp [runWord, decode, hwidth, exec_decodeSegment]

theorem runWord_display (advance : Bool) (s : State) :
    runWord ⟨.mux, advance.toNat⟩ s = muxStep (if advance then indexNext s.cfg.n s.muxIdx else s.muxIdx) s := by
  cases advance <;> rfl

/-! ### A block cycle in full -/

/-- The words of a cycle that do not depend on the selected slot (R103): all but the encoder's and the display's. -/
def slotFreeWords (inp : Inputs) (s : State) : List OpWord :=
  [⟨.tc, (commandOf inp s).toNat⟩, ⟨.tg .sec, inp.tickEn.toNat⟩, ⟨.pg, 0⟩,
   ⟨.btn .ih, inp.rawIh.toNat⟩, ⟨.btn .dh, inp.rawDh.toNat⟩, ⟨.btn .im, inp.rawIm.toNat⟩, ⟨.btn .dm, inp.rawDm.toNat⟩,
   ⟨.bcd .h, s.tc.hours.val⟩, ⟨.bcd .m, s.tc.minutes.val⟩, ⟨.bcd .s, s.tc.seconds.val⟩]

theorem cycleWords_eq (inp : Inputs) (s : State) :
    cycleWords inp s = slotFreeWords inp s ++ (encoderWords s ++ [⟨.mux, (tickEvent true s.scanCnt).toNat⟩]) :=
  List.append_assoc _ _ _

/-- The state after the cycle's slot-free words: only the encoder's and the display's registers and outputs are still
those of the snapshot `s`. -/
def beforeDisplay (inp : Inputs) (s : State) : State :=
  { s with
    tc := commandTime (commandOf inp s) s.tc
    secCnt := tickNext s.cfg.pT inp.tickEn s.secCnt
    ph := phaseNext s.cfg.bl s.cfg.bh s.ph
    btnIh := buttonNext s.cfg.w s.btnIh inp.rawIh
    btnDh := buttonNext s.cfg.w s.btnDh inp.rawDh
    btnIm := buttonNext s.cfg.w s.btnIm inp.rawIm
    btnDm := buttonNext s.cfg.w s.btnDm inp.rawDm
    ports := portsOf inp s
    out := { s.out with
      secEv := tickEvent inp.tickEn s.secCnt
      blink := blinkLevel s.cfg.bl s.ph
      ih := buttonOut s.btnIh
      dh := buttonOut s.btnDh
      im := buttonOut s.btnIm
      dm := buttonOut s.btnDm
      bcdH := bcdPair s.tc.hours.val
      bcdM := bcdPair s.tc.minutes.val
      bcdS := bcdPair s.tc.seconds.val } }

/-- Each ButtonInput's step as one write of its registers and its outputs. -/
theorem buttonStep_ih (raw : Bool) (s : State) :
    buttonStep .ih raw s =
      { s with btnIh := buttonNext s.cfg.w s.btnIh raw, out := { s.out with ih := buttonOut s.btnIh } } := rfl

theorem buttonStep_dh (raw : Bool) (s : State) :
    buttonStep .dh raw s =
      { s with btnDh := buttonNext s.cfg.w s.btnDh raw, out := { s.out with dh := buttonOut s.btnDh } } := rfl

theorem buttonStep_im (raw : Bool) (s : State) :
    buttonStep .im raw s =
      { s with btnIm := buttonNext s.cfg.w s.btnIm raw, out := { s.out with im := buttonOut s.btnIm } } := rfl

theorem buttonStep_dm (raw : Bool) (s : State) :
    buttonStep .dm raw s =
      { s with btnDm := buttonNext s.cfg.w s.btnDm raw, out := { s.out with dm := buttonOut s.btnDm } } := rfl

theorem runWords_slotFreeWords (inp : Inputs) (s : State) :
    runWords (slotFreeWords inp s) (s.setPorts (portsOf inp s)) = .next (beforeDisplay inp s) := by
  have hhours : s.tc.hours.val ≤ 99 := by omega
  have hminutes : s.tc.minutes.val ≤ 99 := by omega
  have hseconds : s.tc.seconds.val ≤ 99 := by omega
  simp only [slotFreeWords, runWords_cons, runWords_nil, andThen_next, runWord_command, runWord_tickGen, runWord_pulse,
    runWord_button, runWord_converter _ hhours, runWord_converter _ hminutes, runWord_converter _ hseconds,
    State.setPorts, State.setTime, tickStep_sec, State.showBlink, State.setPhase, buttonStep_ih, buttonStep_dh,
    buttonStep_im, buttonStep_dm, State.showDigits, beforeDisplay]

/-- The state after a whole cycle from the snapshot `s` whose selected slot has the digit `d`: every output and every
sampled port is written, from the registers, the parameters and the inputs alone. -/
def afterCycle (inp : Inputs) (s : State) (d : Digit) : State :=
  { beforeDisplay inp s with
    scanCnt := tickNext s.cfg.pS true s.scanCnt
    muxIdx := if tickEvent true s.scanCnt then indexNext s.cfg.n s.muxIdx else s.muxIdx
    out := { (beforeDisplay inp s).out with
      scanEv := tickEvent true s.scanCnt
      segment := segmentPattern d
      frame := muxFrame (portsOf inp s) s.muxIdx d } }

theorem blockCycle_of_slot (inp : Inputs) {s : State} {d : Digit} (h : (slotDigits s.cfg s.tc)[s.muxIdx]? = some d) :
    blockCycle inp s = .next (afterCycle inp s d) := by
  have hencoder : encoderWords s = [⟨.seg, d.toNat⟩] := by simp [encoderWords, h]
  rw [blockCycle, cycleWords_eq, runWords_append, runWords_slotFreeWords, andThen_next, hencoder, List.cons_append,
    runWords_cons, runWord_segment, andThen_next, List.nil_append, runWords_cons, runWord_display]
  exact andThen_eq_next.mpr ⟨_, muxStep_eq_next.mpr ⟨d, h, rfl⟩, rfl⟩

theorem blockCycle_of_noSlot (inp : Inputs) {s : State} (h : (slotDigits s.cfg s.tc)[s.muxIdx]? = none) :
    blockCycle inp s = .refused .selectOutOfRange := by
  have hencoder : encoderWords s = [] := by simp [encoderWords, h]
  have hports : (beforeDisplay inp s).ports.digits[(beforeDisplay inp s).muxIdx]? = none := h
  rw [blockCycle, cycleWords_eq, runWords_append, runWords_slotFreeWords, andThen_next, hencoder, List.nil_append,
    runWords_cons, runWord_display, muxStep_of_noSlot _ hports, andThen_refused]

/-- Settles O20: whether a slot is selected is a question about registers and parameters, and so is the state after
the cycle, whose outputs and ports are all new. -/
theorem outputsAndSampledPortsNeverFeedBack : Obligations.OutputsAndSampledPortsNeverFeedBack := by
  intro s inp o p
  cases hslot : (slotDigits s.cfg s.tc)[s.muxIdx]? with
  | none => rw [blockCycle_of_noSlot inp hslot, blockCycle_of_noSlot (s := { s with out := o, ports := p }) inp hslot]
  | some d =>
    rw [blockCycle_of_slot inp hslot, blockCycle_of_slot (s := { s with out := o, ports := p }) inp hslot]
    rfl

/-! ### Construction, reset and restart -/

theorem init_inv {cfg : Config} (h : cfg.Valid) : (State.init cfg).Inv := by
  obtain ⟨hperiod, hwidth, hslots⟩ := h
  have hidle : 1 < 2 ^ cfg.w := Nat.one_lt_two_pow (by omega)
  exact ⟨⟨hperiod, hwidth, hslots⟩, le_rfl, le_rfl, hperiod, hidle, hidle, hidle, hidle, hslots,
    List.length_replicate⟩

theorem block_valid : Config.block.Valid := by
  have hlow : Config.blinkLowDraw % (Config.blinkPeriod + 1) < Config.blinkPeriod + 1 := Nat.mod_lt _ (by omega)
  have hperiod : 1 ≤ Config.blinkPeriod := Nat.le_add_left 1 Config.blinkPeriodPred
  refine ⟨?_, by simp [Config.block], by simp [Config.block, Config.n]⟩
  simp only [Config.block]
  omega

/-- Settles O14: the open parameters of the block at reset are within what construction accepts, whatever they are. -/
theorem resetMeetsTheInvariant : Obligations.ResetMeetsTheInvariant := init_inv block_valid

theorem init_button (cfg : Config) (b : Button) : (State.init cfg).button b = ⟨false, false, false, 1⟩ := by
  cases b <;> rfl

theorem construct_eq_ok {r : ConfigRequest} {s : State} :
    construct r = .ok s ↔ configErrors r = [] ∧ s = State.init (configOf r) := by
  unfold construct
  split
  · next h => simp [h, eq_comm]
  · next e es h => simp [h]

/-- A request passes every check exactly when it is within R109's bounds and asks for the atomic policy. -/
theorem configErrors_eq_nil (r : ConfigRequest) :
    configErrors r = [] ↔
      1 ≤ r.tickCycles ∧ 1 ≤ r.scanCycles ∧ 1 ≤ r.slots.length ∧ 1 ≤ r.bl + r.bh ∧ 2 ≤ r.w ∧
        (r.seedHours < 24 ∧ r.seedMinutes < 60 ∧ r.seedSeconds < 60) ∧ r.policy ≠ .sequential := by
  simp only [configErrors, List.append_eq_nil_iff, ite_eq_right_iff, List.cons_ne_nil, imp_false, ne_eq]
  by_cases hpolicy : r.policy = .sequential
  · simp only [hpolicy, not_true, and_false]
  · simp only [hpolicy, not_false_eq_true, and_true, preloadOf]
    omega

theorem preloadOf_toNat_add_one {cycles : Nat} (h : 1 ≤ cycles) : (preloadOf cycles).toNat + 1 = cycles := by
  unfold preloadOf
  omega

/-- Settles O58: construction and restart both give `State.init`, whose parameters the checks have made valid. -/
theorem constructionGivesTheResetValues : Obligations.ConstructionGivesTheResetValues := by
  constructor
  · intro r s h
    obtain ⟨hchecks, rfl⟩ := construct_eq_ok.mp h
    obtain ⟨htick, hscan, hslots, hperiod, hwidth, ⟨hhours, hminutes, hseconds⟩, _⟩ :=
      (configErrors_eq_nil r).mp hchecks
    exact ⟨Nat.mod_eq_of_lt hhours, Nat.mod_eq_of_lt hminutes, Nat.mod_eq_of_lt hseconds,
      preloadOf_toNat_add_one htick, rfl, preloadOf_toNat_add_one hscan, rfl, rfl, rfl, init_button _,
      rfl, rfl, rfl, rfl, init_inv ⟨hperiod, hwidth, hslots⟩⟩
  · intro s seed
    exact ⟨rfl, rfl, rfl, rfl, rfl, init_button { s.cfg with seed := seed }, rfl,
      fun hvalid => init_inv (cfg := { s.cfg with seed := seed }) hvalid⟩

end Sys2Proof.Machine
end

section
/-! The family 20_memory.md: the common commit of a cycle. What a block cycle writes in full, why operations of different
components commute, and why a cycle's words give one result in every order. -/

namespace Sys2Proof.Machine

/-! ### The unit steps in the source's words

`ADJ` and the tick (R86, R87) and the source's recursive `Advance` (R81) name the same TimeValue. -/

theorem addMod_zero {m : Nat} [NeZero m] (v : Fin m) : addMod v 0 = v := by
  simp [addMod, Int.emod_eq_of_lt, v.isLt]

theorem addMod_addMod {m : Nat} [NeZero m] (v : Fin m) (j k : Int) : addMod (addMod v j) k = addMod v (j + k) := by
  have hval : ((addMod (addMod v j) k).val : Int) = (addMod v (j + k)).val := by
    rw [addMod_val, addMod_val, addMod_val, Int.emod_add_emod, add_assoc]
  exact Fin.ext (Int.ofNat_inj.mp hval)

/-! Hours and minutes count up and down as the source's words have it, the roll over written as its own case. -/

theorem addMod_hours_up (h : Fin 24) : addMod h 1 = if h = 23 then 0 else h + 1 := by
  revert h
  decide

theorem addMod_hours_down (h : Fin 24) : addMod h (-1) = if h = 0 then 23 else h - 1 := by
  revert h
  decide

theorem unitStep_sixty_up (v : Fin 60) : unitStep v .plus = if v = 59 then (0, .plus) else (v + 1, .zero) := by
  revert v
  decide

theorem unitStep_sixty_down (v : Fin 60) : unitStep v .minus = if v = 0 then (59, .minus) else (v - 1, .zero) := by
  revert v
  decide

theorem unitStep_zero {m : Nat} [NeZero m] (v : Fin m) : unitStep v .zero = (v, .zero) := by
  simp [unitStep, addMod_zero]

theorem advanceHours_eq (up : Bool) (t : TimeValue) :
    advanceHours up t = { t with hours := addMod t.hours (if up then 1 else -1) } := by
  cases up with
  | true =>
    simp only [advanceHours, if_true, addMod_hours_up]
    split <;> rfl
  | false =>
    simp only [advanceHours, Bool.false_eq_true, if_false, addMod_hours_down]
    split <;> rfl

/-- An hours request adds its delta modulo 24; hours have no parent to pass a carry to. -/
theorem requestHours_eq (hd : Delta) (t : TimeValue) :
    requestHours hd t = { t with hours := addMod t.hours hd.toInt } := by
  cases hd with
  | plus => exact advanceHours_eq true t
  | minus => exact advanceHours_eq false t
  | zero => simp [requestHours, addMod_zero]

/-- A minutes request steps the minutes and passes the carry to the hours. -/
theorem requestMinutes_eq (md : Delta) (t : TimeValue) :
    requestMinutes md t =
      { t with
        hours := addMod t.hours (unitStep t.minutes md).2.toInt
        minutes := (unitStep t.minutes md).1 } := by
  cases md with
  | plus =>
    simp only [requestMinutes, advanceMinutes, if_true, unitStep_sixty_up, advanceHours_eq]
    split
    · rfl
    · simp [addMod_zero]
  | minus =>
    simp only [requestMinutes, advanceMinutes, Bool.false_eq_true, if_false, unitStep_sixty_down, advanceHours_eq]
    split
    · rfl
    · simp [addMod_zero]
  | zero => simp [requestMinutes, unitStep_zero, addMod_zero]

/-- `ADJ(hd, md)` is the minutes request followed by the hours request: the carry and the hours delta add up. -/
theorem adjustTime_eq_requests (hd md : Delta) (t : TimeValue) :
    adjustTime hd md t = requestHours hd (requestMinutes md t) := by
  rw [requestHours_eq, requestMinutes_eq, addMod_addMod, add_comm]
  rfl

/-- The tick is `Advance(seconds, +1)`: the minutes step only where the seconds roll over. -/
theorem tickTime_eq_advanceSeconds (t : TimeValue) : tickTime t = advanceSeconds t := by
  simp only [tickTime, tickMinutes, advanceSeconds, unitStep_sixty_up t.seconds]
  split
  · exact (requestMinutes_eq .plus { t with seconds := 0 }).symm
  · simp [addMod_zero]

/-! ### The cycle's writes -/

theorem hoursDelta_commandOf (inp : Inputs) (s : State) : hoursDelta (commandOf inp s) = hoursRequest s := by
  obtain ⟨_, hinc, hdec, _, _⟩ := commandOf_bits inp s
  simp only [hoursDelta, hoursRequest, hinc, hdec, pulseOut, beq_iff_eq]

theorem minutesDelta_commandOf (inp : Inputs) (s : State) : minutesDelta (commandOf inp s) = minutesRequest s := by
  obtain ⟨_, _, _, hinc, hdec⟩ := commandOf_bits inp s
  simp only [minutesDelta, minutesRequest, hinc, hdec, pulseOut, beq_iff_eq]

/-- The time a cycle's command word makes: the tick where the seconds event is high, the buttons' requests elsewhere. -/
theorem commandTime_commandOf (inp : Inputs) (s : State) (t : TimeValue) :
    commandTime (commandOf inp s) t =
      if tickEvent inp.tickEn s.secCnt then advanceSeconds t
      else requestHours (hoursRequest s) (requestMinutes (minutesRequest s) t) := by
  obtain ⟨htick, _⟩ := commandOf_bits inp s
  rw [commandTime, htick, hoursDelta_commandOf, minutesDelta_commandOf, tickTime_eq_advanceSeconds,
    adjustTime_eq_requests]

/-- The select index moves on exactly in the scan event's cycle (R76, R77). -/
theorem nextIndex_eq (n idx scanCnt : Nat) :
    (if tickEvent true scanCnt then indexNext n idx else idx) = if scanCnt = 0 then (idx + 1) % n else idx := by
  simp [tickEvent, indexNext]

/-- Under the invariant some slot is selected, so its digit exists. -/
theorem State.Inv.selectedDigit {s : State} (h : s.Inv) : ∃ d, (slotDigits s.cfg s.tc)[s.muxIdx]? = some d := by
  have hidx : s.muxIdx < (slotDigits s.cfg s.tc).length := by
    rw [slotDigits_length]
    exact h.muxIdx_lt
  exact ⟨_, List.getElem?_eq_getElem hidx⟩

/-- Settles O10: the cycle's words in their order reach `afterCycle`, whose time and index are the source's. -/
theorem blockCycleCommitsEveryRegisterFromTheSnapshot :
    Obligations.BlockCycleCommitsEveryRegisterFromTheSnapshot := by
  intro s inp h
  obtain ⟨d, hd⟩ := h.selectedDigit
  refine ⟨d, hd, ?_⟩
  rw [blockCycle_of_slot inp hd, ← commandTime_commandOf, ← nextIndex_eq]
  rfl

/-! ### An operation reads its own component only -/

/-- Two states are the same in everything an operation of component `c` reads: the component's own registers and
outputs, the construction parameters and the sampled ports. -/
def SameReads (c : Component) (s s' : State) : Prop :=
  sameComponent s s' c ∧ s'.cfg = s.cfg ∧ s'.ports = s.ports

theorem SameReads.cfg_eq {c : Component} {s s' : State} (h : SameReads c s s') : s'.cfg = s.cfg := h.2.1

theorem SameReads.muxIdx_eq {s s' : State} (h : SameReads .display s s') : s'.muxIdx = s.muxIdx := h.1.1

theorem sameComponent.trans {s t u : State} {c : Component} (hst : sameComponent s t c) (htu : sameComponent t u c) :
    sameComponent s u c := by
  cases c <;> simp_all [sameComponent]

theorem sameComponent.symm {s t : State} {c : Component} (h : sameComponent s t c) : sameComponent t s c := by
  cases c <;> simp_all [sameComponent]

/-- What one component writes is not read by another (R13, R15). -/
theorem OnlyChanges.sameReads {c d : Component} {s t : State} (h : OnlyChanges c s t) (hne : d ≠ c) :
    SameReads d s t := by
  obtain ⟨hothers, hcfg, hports, _, _⟩ := h
  exact ⟨hothers d hne, hcfg, hports⟩

theorem setTime_sameReads (f : TimeValue → TimeValue) {s s' : State} (h : SameReads .timeCore s s') :
    sameComponent (s.setTime (f s.tc)) (s'.setTime (f s'.tc)) .timeCore :=
  congrArg f h.1

theorem tickStep_sameReads {g : TickGen} (en : Bool) {s s' : State} (h : SameReads (componentOf (.tg g)) s s') :
    sameComponent (tickStep g en s) (tickStep g en s') (componentOf (.tg g)) := by
  cases g with
  | sec =>
    obtain ⟨⟨hcnt, _⟩, hcfg, _⟩ := h
    simp [sameComponent, componentOf, tickStep_sec, hcnt, hcfg]
  | scan =>
    obtain ⟨⟨hidx, hcnt, _, hframe⟩, hcfg, _⟩ := h
    simp [sameComponent, componentOf, tickStep_scan, hidx, hcnt, hframe, hcfg]

theorem debounceStep_sameReads {b : Button} (i : Bool) {s s' : State} (h : SameReads (.button b) s s') :
    sameComponent (debounceStep b i s) (debounceStep b i s') (.button b) := by
  obtain ⟨⟨hregs, hout⟩, hcfg, _⟩ := h
  obtain ⟨hwritten, hshown, _⟩ := debounceStep_spec b i s
  obtain ⟨hwritten', hshown', _⟩ := debounceStep_spec b i s'
  simp [sameComponent, hwritten, hshown, hwritten', hshown', hregs, hout, hcfg]

theorem buttonStep_sameReads {b : Button} (raw : Bool) {s s' : State} (h : SameReads (.button b) s s') :
    sameComponent (buttonStep b raw s) (buttonStep b raw s') (.button b) := by
  obtain ⟨⟨hregs, _⟩, hcfg, _⟩ := h
  obtain ⟨hwritten, hshown, _⟩ := buttonStep_spec b raw s
  obtain ⟨hwritten', hshown', _⟩ := buttonStep_spec b raw s'
  simp [sameComponent, hwritten, hshown, hwritten', hshown', hregs, hcfg]

theorem muxStep_sameReads {next : Nat} {s s' t : State} (h : SameReads .display s s')
    (hmux : muxStep next s = .next t) : ∃ t', muxStep next s' = .next t' ∧ sameComponent t t' .display := by
  obtain ⟨⟨hidx, hcnt, _, _⟩, hcfg, hports⟩ := h
  obtain ⟨d, hd, rfl⟩ := muxStep_eq_next.mp hmux
  rw [← hports, ← hidx] at hd
  refine ⟨_, muxStep_eq_next.mpr ⟨d, hd, rfl⟩, ?_⟩
  simp [sameComponent, hidx, hcnt, hcfg, hports]

/-- Where everything an operation reads is the same, it answers too, and writes the same into its component. -/
theorem exec_sameReads {i : Instr} {s s' t : State} (h : SameReads (componentOf i.port) s s')
    (hexec : exec i s = .next t) :
    ∃ t', exec i s' = .next t' ∧ sameComponent t t' (componentOf i.port) := by
  cases i with
  | tgDisabled g | tgEnabled g => cases hexec; exact ⟨_, rfl, tickStep_sameReads _ h⟩
  | pgStep =>
    obtain ⟨⟨hph, _⟩, hcfg, _⟩ := h
    cases hexec
    refine ⟨_, rfl, ?_, ?_⟩ <;> simp [hph, hcfg]
  | debIn0 b | debIn1 b => cases hexec; exact ⟨_, rfl, debounceStep_sameReads _ h⟩
  | btnStep b raw => cases hexec; exact ⟨_, rfl, buttonStep_sameReads raw h⟩
  | bcdSplit f v =>
    obtain ⟨hv, rfl⟩ := execBcdSplit_eq_next.mp hexec
    refine ⟨_, execBcdSplit_eq_next.mpr ⟨hv, rfl⟩, ?_⟩
    exact (s'.showDigits_digits f _).trans (s.showDigits_digits f _).symm
  | muxHold =>
    have hsame := muxStep_sameReads h hexec
    rwa [← h.muxIdx_eq] at hsame
  | muxAdvance =>
    have hsame := muxStep_sameReads h hexec
    rwa [← h.muxIdx_eq, ← h.cfg_eq] at hsame
  | tick | hold | incH | decH | incM | decM | incHIncM | incHDecM | decHIncM | decHDecM =>
    cases hexec
    exact ⟨_, rfl, setTime_sameReads _ h⟩
  | segEncode0 | segEncode1 | segEncode2 | segEncode3 | segEncode4 | segEncode5 | segEncode6 | segEncode7
  | segEncode8 | segEncode9 | segEncodeA | segEncodeB | segEncodeC | segEncodeD | segEncodeE | segEncodeF =>
    cases hexec
    exact ⟨_, rfl, rfl⟩

/-! ### Operations of different components commute -/

/-- The components' registers and outputs, with the fields no operation writes, are the whole state. -/
theorem State.eq_of_sameComponents {s t : State} (hall : ∀ c, sameComponent s t c) (hcfg : t.cfg = s.cfg)
    (hports : t.ports = s.ports) (hstim : t.stim = s.stim) (hdraws : t.draws = s.draws) : t = s := by
  have htc := hall .timeCore
  have hsec := hall .seconds
  have hpulse := hall .pulse
  have hih := hall (.button .ih)
  have hdh := hall (.button .dh)
  have him := hall (.button .im)
  have hdm := hall (.button .dm)
  have hh := hall (.converter .h)
  have hm := hall (.converter .m)
  have hs := hall (.converter .s)
  have henc := hall .encoder
  have hdisp := hall .display
  obtain ⟨_, _, _, _, _, _, _, _, _, _, _, ⟨_, _, _, _, _, _, _, _, _, _, _, _⟩, _, _⟩ := s
  obtain ⟨_, _, _, _, _, _, _, _, _, _, _, ⟨_, _, _, _, _, _, _, _, _, _, _, _⟩, _, _⟩ := t
  simp only [sameComponent, State.button_ih, State.button_dh, State.button_im, State.button_dm, Outputs.button_ih,
    Outputs.button_dh, Outputs.button_im, Outputs.button_dm, Outputs.digits_h, Outputs.digits_m,
    Outputs.digits_s] at *
  simp only [*]

/-- Two changes of different components from one state, made in both orders with the same values, meet in one state. -/
theorem OnlyChanges.diamond {c d : Component} {s u v t t' : State} (hne : c ≠ d)
    (hsu : OnlyChanges c s u) (hut : OnlyChanges d u t) (hsv : OnlyChanges d s v) (hvt' : OnlyChanges c v t')
    (hd : sameComponent t v d) (hc : sameComponent u t' c) : t' = t := by
  obtain ⟨hsu, hcfg, hports, hstim, hdraws⟩ := hsu
  obtain ⟨hut, hcfg₁, hports₁, hstim₁, hdraws₁⟩ := hut
  obtain ⟨hsv, hcfg₂, hports₂, hstim₂, hdraws₂⟩ := hsv
  obtain ⟨hvt', hcfg₃, hports₃, hstim₃, hdraws₃⟩ := hvt'
  refine State.eq_of_sameComponents (fun e => ?_)
    (by rw [hcfg₃, hcfg₂, hcfg₁, hcfg]) (by rw [hports₃, hports₂, hports₁, hports])
    (by rw [hstim₃, hstim₂, hstim₁, hstim]) (by rw [hdraws₃, hdraws₂, hdraws₁, hdraws])
  by_cases hec : e = c
  · subst hec
    exact (hut e hne).symm.trans hc
  by_cases hed : e = d
  · subst hed
    exact hd.trans (hvt' e hec)
  · exact (hut e hed).symm.trans ((hsu e hec).symm.trans ((hsv e hed).trans (hvt' e hec)))

/-- Two operations of different components can change places: neither reads what the other writes. -/
theorem exec_swap {i j : Instr} {s u t : State} (hne : componentOf i.port ≠ componentOf j.port)
    (hi : exec i s = .next u) (hj : exec j u = .next t) : ∃ v, exec j s = .next v ∧ exec i v = .next t := by
  have hframe := operationsChangeOnlyTheirOwnComponent
  have hback : SameReads (componentOf j.port) u s := by
    obtain ⟨hsame, hcfg, hports⟩ := (hframe i s u hi).sameReads hne.symm
    exact ⟨hsame.symm, hcfg.symm, hports.symm⟩
  obtain ⟨v, hjs, hd⟩ := exec_sameReads hback hj
  obtain ⟨t', hiv, hc⟩ := exec_sameReads ((hframe j s v hjs).sameReads hne) hi
  have hmeet : t' = t :=
    (hframe i s u hi).diamond hne (hframe j u t hj) (hframe j s v hjs) (hframe i v t' hiv) hd hc
  exact ⟨v, hjs, hmeet ▸ hiv⟩

theorem performAll_pair {i j : Instr} {s t : State} :
    performAll [i, j] s = .next t ↔ ∃ u, exec i s = .next u ∧ exec j u = .next t := by
  simp [performAll, andThen_eq_next]

/-- Settles O11: the swap of two operations, in both directions. -/
theorem operationsOfDifferentComponentsCommute : Obligations.OperationsOfDifferentComponentsCommute := by
  intro i j s t hne
  rw [performAll_pair, performAll_pair]
  constructor
  · rintro ⟨u, hi, hj⟩
    exact exec_swap hne hi hj
  · rintro ⟨v, hj, hi⟩
    exact exec_swap hne.symm hj hi

/-! ### The words of a cycle in any order -/

theorem decodeCommand_port (w : CommandWord) : (decodeCommand w).port = .tc := by
  unfold decodeCommand
  split
  · rfl
  · cases hoursDelta w <;> cases minutesDelta w <;> rfl

theorem decodeSegment_port (d : Digit) : (decodeSegment d).port = .seg := by
  unfold decodeSegment
  split <;> rfl

/-- An operation that is decoded belongs to the port that read its word. -/
theorem decode_port {x : OpWord} {i : Instr} (h : decode x = .ok i) : i.port = x.port := by
  obtain ⟨port, bits⟩ := x
  unfold decode at h
  split at h
  · cases h
  cases port with
  | tc => cases h; exact decodeCommand_port _
  | seg => cases h; exact decodeSegment_port _
  | tg g => cases h; split <;> rfl
  | deb b => cases h; split <;> rfl
  | mux => cases h; split <;> rfl
  | pg | btn b => cases h; rfl
  | bcd f =>
    simp only at h
    split at h
    · cases h; rfl
    · cases h

/-- The component an operation word is read by. -/
def wordComponent (x : OpWord) : Component := componentOf x.port

theorem runWord_swap {x y : OpWord} {s u t : State} (hne : wordComponent x ≠ wordComponent y)
    (hx : runWord x s = .next u) (hy : runWord y u = .next t) : ∃ v, runWord y s = .next v ∧ runWord x v = .next t := by
  obtain ⟨i, hdi, hi⟩ := runWord_eq_next.mp hx
  obtain ⟨j, hdj, hj⟩ := runWord_eq_next.mp hy
  have hports : componentOf i.port ≠ componentOf j.port := by
    rw [decode_port hdi, decode_port hdj]
    exact hne
  obtain ⟨v, hjs, hiv⟩ := exec_swap hports hi hj
  exact ⟨v, runWord_eq_next.mpr ⟨j, hdj, hjs⟩, runWord_eq_next.mpr ⟨i, hdi, hiv⟩⟩

/-- Words of pairwise different components that run to a state run to it in every order. -/
theorem runWords_perm {xs ys : List OpWord} (hperm : xs.Perm ys) (hnodup : (xs.map wordComponent).Nodup)
    {s t : State} (hrun : runWords xs s = .next t) : runWords ys s = .next t := by
  induction hperm generalizing s with
  | nil => exact hrun
  | cons x _ ih =>
    obtain ⟨u, hx, hrest⟩ := andThen_eq_next.mp hrun
    exact andThen_eq_next.mpr ⟨u, hx, ih (List.nodup_cons.mp hnodup).2 hrest⟩
  | swap x y l =>
    obtain ⟨u, hy, hrun⟩ := andThen_eq_next.mp hrun
    obtain ⟨w, hx, hrest⟩ := andThen_eq_next.mp hrun
    have hne : wordComponent y ≠ wordComponent x := fun heq => by simp [heq] at hnodup
    obtain ⟨v, hxs, hyv⟩ := runWord_swap hne hy hx
    exact andThen_eq_next.mpr ⟨v, hxs, andThen_eq_next.mpr ⟨w, hyv, hrest⟩⟩
  | trans h₁ _ ih₁ ih₂ => exact ih₂ ((h₁.map _).nodup_iff.mp hnodup) (ih₁ hnodup hrun)

/-- Each component reads at most one word in a cycle (R37). -/
theorem cycleWords_nodup (inp : Inputs) (s : State) : ((cycleWords inp s).map wordComponent).Nodup := by
  unfold cycleWords encoderWords
  split <;> simp [wordComponent, componentOf]

/-- Settles O12: the cycle's words reach a next state in the model's order, and so in every order. -/
theorem orderWithinACycleIsIrrelevant : Obligations.OrderWithinACycleIsIrrelevant := by
  intro s inp ws h hperm
  obtain ⟨d, hd⟩ := h.selectedDigit
  rw [blockCycle_of_slot inp hd]
  exact runWords_perm hperm.symm (cycleWords_nodup inp s) (blockCycle_of_slot inp hd)

end Sys2Proof.Machine
end

section
/-! The family 30_encoding.md: one equation of the decoder per format, the words that fit their format as the cases of an
inductive view, the rows of TimeCore's opcode map, and from these both directions of the round trip. -/

namespace Sys2Proof.Machine

/-! ### The decoder, one equation per format (R38, R42)

TimeCore's format has its equation in `decode_commandWord`. -/

theorem decode_tickGenWord (g : TickGen) (en : Bool) :
    decode ⟨.tg g, en.toNat⟩ = .ok (if en then .tgEnabled g else .tgDisabled g) := by
  cases en <;> simp [decode, Port.width]

theorem decode_pulseWord : decode ⟨.pg, 0⟩ = .ok .pgStep := rfl

theorem decode_debouncerWord (b : Button) (i : Bool) : decode ⟨.deb b, i.toNat⟩ = .ok (debounceOp b i) := by
  cases i <;> simp [decode, Port.width, debounceOp]

theorem decode_buttonWord (b : Button) (raw : Bool) : decode ⟨.btn b, raw.toNat⟩ = .ok (.btnStep b raw) := by
  cases raw <;> simp [decode, Port.width]

theorem decode_converterWord (f : Converter) (v : BcdValue) :
    decode ⟨.bcd f, v.toNat⟩ = if v.inDomain then .ok (.bcdSplit f v) else .error .bcdDomain := by
  have hwidth : ¬ 2 ^ (Port.bcd f).width ≤ v.toNat := Nat.not_le.mpr v.isLt
  simp [decode, hwidth]

theorem decode_segmentWord (d : Digit) : decode ⟨.seg, d.toNat⟩ = .ok (decodeSegment d) := by
  have hwidth : ¬ 2 ^ Port.seg.width ≤ d.toNat := Nat.not_le.mpr d.isLt
  simp [decode, hwidth]

theorem decode_displayWord (advance : Bool) :
    decode ⟨.mux, advance.toNat⟩ = .ok (if advance then .muxAdvance else .muxHold) := by
  cases advance <;> rfl

/-- A word that does not fit its format is rejected whatever its port (R48). -/
theorem decode_of_tooWide {x : OpWord} (h : 2 ^ x.port.width ≤ x.bits) : decode x = .error .wordTooWide := if_pos h

/-! ### The words that fit their format -/

/-- A word read by a port whose format holds it: one constructor per format of R38, with the value the format carries. -/
inductive FormatWord : OpWord → Prop
  | command (w : CommandWord) : FormatWord ⟨.tc, w.toNat⟩
  | tickGen (g : TickGen) (en : Bool) : FormatWord ⟨.tg g, en.toNat⟩
  | pulse : FormatWord ⟨.pg, 0⟩
  | debouncer (b : Button) (i : Bool) : FormatWord ⟨.deb b, i.toNat⟩
  | button (b : Button) (raw : Bool) : FormatWord ⟨.btn b, raw.toNat⟩
  | converter (f : Converter) (v : BcdValue) : FormatWord ⟨.bcd f, v.toNat⟩
  | segment (d : Digit) : FormatWord ⟨.seg, d.toNat⟩
  | display (advance : Bool) : FormatWord ⟨.mux, advance.toNat⟩

theorem exists_toNat_eq_of_lt_two {n : Nat} (h : n < 2 ^ 1) : ∃ b : Bool, b.toNat = n :=
  ⟨decide (n = 1), by interval_cases n <;> rfl⟩

/-- The view covers exactly the words below their format's width. -/
theorem formatWord_iff {x : OpWord} : FormatWord x ↔ x.bits < 2 ^ x.port.width := by
  constructor
  · intro h
    cases h with
    | command w | converter f w | segment w => exact w.isLt
    | tickGen g v | debouncer b v | button b v | display v => exact v.toNat_lt
    | pulse => exact Nat.one_pos
  · intro h
    obtain ⟨port, bits⟩ := x
    cases port with
    | tc => exact .command (BitVec.ofNatLT bits h)
    | bcd f => exact .converter f (BitVec.ofNatLT bits h)
    | seg => exact .segment (BitVec.ofNatLT bits h)
    | pg =>
      obtain rfl : bits = 0 := Nat.lt_one_iff.mp h
      exact .pulse
    | tg g | deb b | btn b | mux =>
      obtain ⟨v, rfl⟩ := exists_toNat_eq_of_lt_two h
      constructor

theorem formatWord_of_decode {x : OpWord} {i : Instr} (h : decode x = .ok i) : FormatWord x := by
  by_contra hnot
  have hwide : 2 ^ x.port.width ≤ x.bits := Nat.not_lt.mp (mt formatWord_iff.mpr hnot)
  rw [decode_of_tooWide hwide] at h
  cases h

/-! ### What the decoder rejects -/

theorem inDomain_iff (v : BcdValue) : v.inDomain = true ↔ v.toNat ≤ 99 := decide_eq_true_iff

theorem decode_converterWord_of_le (f : Converter) {v : BcdValue} (h : v.toNat ≤ 99) :
    decode ⟨.bcd f, v.toNat⟩ = .ok (.bcdSplit f v) := by
  rw [decode_converterWord, if_pos ((inDomain_iff v).mpr h)]

theorem decode_converterWord_of_gt (f : Converter) {v : BcdValue} (h : 99 < v.toNat) :
    decode ⟨.bcd f, v.toNat⟩ = .error .bcdDomain := by
  rw [decode_converterWord, if_neg (mt (inDomain_iff v).mp (Nat.not_le.mpr h))]

/-- A word that fits its format decodes, but for a converter's value above 99 (R47). -/
theorem FormatWord.decodes {x : OpWord} (h : FormatWord x) :
    (∃ i, decode x = .ok i) ∨ (∃ f, x.port = .bcd f) ∧ 99 < x.bits ∧ decode x = .error .bcdDomain := by
  cases h with
  | command w => exact .inl ⟨_, decode_commandWord w⟩
  | tickGen g en => exact .inl ⟨_, decode_tickGenWord g en⟩
  | pulse => exact .inl ⟨_, decode_pulseWord⟩
  | debouncer b i => exact .inl ⟨_, decode_debouncerWord b i⟩
  | button b raw => exact .inl ⟨_, decode_buttonWord b raw⟩
  | segment d => exact .inl ⟨_, decode_segmentWord d⟩
  | display advance => exact .inl ⟨_, decode_displayWord advance⟩
  | converter f v =>
    rcases Nat.lt_or_ge 99 v.toNat with hv | hv
    · exact .inr ⟨⟨f, rfl⟩, hv, decode_converterWord_of_gt f hv⟩
    · exact .inl ⟨_, decode_converterWord_of_le f hv⟩

theorem decode_eq_wordTooWide_iff (x : OpWord) : decode x = .error .wordTooWide ↔ 2 ^ x.port.width ≤ x.bits := by
  refine ⟨fun h => ?_, decode_of_tooWide⟩
  by_contra hfits
  rcases (formatWord_iff.mpr (Nat.not_le.mp hfits)).decodes with ⟨i, hi⟩ | ⟨_, _, hdomain⟩
  · cases h.symm.trans hi
  · cases h.symm.trans hdomain

theorem decode_eq_bcdDomain_iff (x : OpWord) :
    decode x = .error .bcdDomain ↔ (∃ f, x.port = .bcd f) ∧ 100 ≤ x.bits ∧ x.bits ≤ 127 := by
  constructor
  · intro h
    have hfits : x.bits < 2 ^ x.port.width := by
      by_contra hwide
      cases h.symm.trans (decode_of_tooWide (Nat.not_lt.mp hwide))
    rcases (formatWord_iff.mpr hfits).decodes with ⟨i, hi⟩ | ⟨⟨f, hf⟩, hbits, _⟩
    · cases h.symm.trans hi
    · rw [hf] at hfits
      exact ⟨⟨f, hf⟩, hbits, Nat.le_of_lt_succ hfits⟩
  · obtain ⟨port, bits⟩ := x
    rintro ⟨⟨f, rfl⟩, hlow, hhigh⟩
    exact decode_converterWord_of_gt f (v := BitVec.ofNatLT bits (Nat.lt_succ_of_le hhigh)) hlow

/-! ### TimeCore's opcode map (R40, R41) -/

/-- A word matches a row exactly when the two-step decoding of R40 gives the row's operation. -/
theorem matches_row_iff :
    ∀ r ∈ commandRows, ∀ w : CommandWord, w &&& r.mask = r.value ↔ decodeCommand w = r.instr := by
  decide

/-- The two-step decoding ends in an operation of the map: the tick's, or that of one of the nine pairs of deltas. -/
theorem decodeCommand_mem_rows (w : CommandWord) : ∃ r ∈ commandRows, r.instr = decodeCommand w := by
  unfold decodeCommand
  split
  · decide
  · cases hoursDelta w <;> cases minutesDelta w <;> decide

theorem row_eq_of_instr_eq : ∀ q ∈ commandRows, ∀ r ∈ commandRows, q.instr = r.instr → q = r := by decide

/-- The encoder writes an operation of the map as its row's match value. -/
theorem encode_row : ∀ r ∈ commandRows, encode r.instr = ⟨.tc, r.value.toNat⟩ := by decide

theorem wellFormed_row : ∀ r ∈ commandRows, r.instr.wellFormed = true := by decide

/-! ### A decoded operation -/

theorem decodeSegment_wellFormed (d : Digit) : (decodeSegment d).wellFormed = true := by
  unfold decodeSegment
  split <;> rfl

theorem encode_decodeSegment (d : Digit) : encode (decodeSegment d) = ⟨.seg, d.toNat⟩ := by
  obtain ⟨⟨v, hv⟩⟩ := d
  interval_cases v <;> rfl

/-- A converter's word that decodes holds a value of the domain. -/
theorem decode_converterWord_eq_ok {f : Converter} {v : BcdValue} {i : Instr} (h : decode ⟨.bcd f, v.toNat⟩ = .ok i) :
    v.inDomain = true ∧ i = .bcdSplit f v := by
  rw [decode_converterWord] at h
  split at h
  · next hv => cases h; exact ⟨hv, rfl⟩
  · cases h

/-- Outside TimeCore's format no word is a second spelling of an operation, and only domain values decode (R42, R47). -/
theorem encode_of_decode {x : OpWord} {i : Instr} (h : decode x = .ok i) (hport : x.port ≠ .tc) :
    i.wellFormed = true ∧ encode i = x := by
  cases formatWord_of_decode h with
  | command w => exact absurd rfl hport
  | segment d =>
    cases (decode_segmentWord d).symm.trans h
    exact ⟨decodeSegment_wellFormed d, encode_decodeSegment d⟩
  | converter f v =>
    obtain ⟨hv, rfl⟩ := decode_converterWord_eq_ok h
    exact ⟨hv, rfl⟩
  | tickGen g en => cases (decode_tickGenWord g en).symm.trans h; cases en <;> exact ⟨rfl, rfl⟩
  | debouncer b v => cases (decode_debouncerWord b v).symm.trans h; cases v <;> exact ⟨rfl, rfl⟩
  | display advance => cases (decode_displayWord advance).symm.trans h; cases advance <;> exact ⟨rfl, rfl⟩
  | button b raw => cases (decode_buttonWord b raw).symm.trans h; exact ⟨rfl, rfl⟩
  | pulse => cases decode_pulseWord.symm.trans h; exact ⟨rfl, rfl⟩

/-- A decoded command word matches the row of its operation, whose match value the encoder writes (R41). -/
theorem row_of_decode_command {bits : Nat} {i : Instr} (h : decode ⟨.tc, bits⟩ = .ok i) :
    ∃ r ∈ commandRows,
      r.instr = i ∧ BitVec.ofNat 5 bits &&& r.mask = r.value ∧ (encode i).bits = r.value.toNat := by
  cases formatWord_of_decode h with
  | command w =>
    cases (decode_commandWord w).symm.trans h
    obtain ⟨r, hr, hinstr⟩ := decodeCommand_mem_rows w
    refine ⟨r, hr, hinstr, ?_, ?_⟩
    · rw [BitVec.ofNat_toNat, BitVec.setWidth_eq]
      exact (matches_row_iff r hr w).mpr hinstr.symm
    · rw [← hinstr, encode_row r hr]

/-! ### Running a driven word -/

theorem runWord_of_decode_ok {x : OpWord} {i : Instr} (h : decode x = .ok i) (s : State) : runWord x s = exec i s := by
  simp only [runWord, h]

theorem runWord_of_decode_error {x : OpWord} {e : DecodeError} (h : decode x = .error e) (s : State) :
    runWord x s = .refused (refusalOf e) := by
  simp only [runWord, h]

theorem step_of_driven {s : State} {x : OpWord} {rest : List Drive} (h : s.stim = .alone x :: rest) :
    step s = runWord x { s with stim := rest } := step_of_lined h

/-! ### The obligations -/

/-- Settles O1: each operation's word is the word of its format that the format's equation decodes back to it. -/
theorem encodedOperationsDecodeToThemselves : Obligations.EncodedOperationsDecodeToThemselves := by
  intro i hwf
  cases i with
  | tick => exact decode_commandWord 0b10000
  | hold => exact decode_commandWord 0b00000
  | incH => exact decode_commandWord 0b01000
  | decH => exact decode_commandWord 0b00100
  | incM => exact decode_commandWord 0b00010
  | decM => exact decode_commandWord 0b00001
  | incHIncM => exact decode_commandWord 0b01010
  | incHDecM => exact decode_commandWord 0b01001
  | decHIncM => exact decode_commandWord 0b00110
  | decHDecM => exact decode_commandWord 0b00101
  | tgDisabled g => exact decode_tickGenWord g false
  | tgEnabled g => exact decode_tickGenWord g true
  | pgStep => exact decode_pulseWord
  | debIn0 b => exact decode_debouncerWord b false
  | debIn1 b => exact decode_debouncerWord b true
  | btnStep b raw => exact decode_buttonWord b raw
  | bcdSplit f v => exact decode_converterWord_of_le f ((inDomain_iff v).mp hwf)
  | segEncode0 => exact decode_segmentWord 0x0
  | segEncode1 => exact decode_segmentWord 0x1
  | segEncode2 => exact decode_segmentWord 0x2
  | segEncode3 => exact decode_segmentWord 0x3
  | segEncode4 => exact decode_segmentWord 0x4
  | segEncode5 => exact decode_segmentWord 0x5
  | segEncode6 => exact decode_segmentWord 0x6
  | segEncode7 => exact decode_segmentWord 0x7
  | segEncode8 => exact decode_segmentWord 0x8
  | segEncode9 => exact decode_segmentWord 0x9
  | segEncodeA => exact decode_segmentWord 0xA
  | segEncodeB => exact decode_segmentWord 0xB
  | segEncodeC => exact decode_segmentWord 0xC
  | segEncodeD => exact decode_segmentWord 0xD
  | segEncodeE => exact decode_segmentWord 0xE
  | segEncodeF => exact decode_segmentWord 0xF
  | muxHold => exact decode_displayWord false
  | muxAdvance => exact decode_displayWord true

/-- Settles O2: a command word by the row of its operation, any other word by the round trip of its format. -/
theorem decodedOperationsMatchTheWordRead : Obligations.DecodedOperationsMatchTheWordRead := by
  rintro ⟨port, bits⟩ i h
  by_cases hport : port = .tc
  · subst hport
    obtain ⟨r, hr, rfl, hmatch, hword⟩ := row_of_decode_command h
    exact ⟨wellFormed_row r hr, decode_port h, fun hne => absurd rfl hne, fun _ => ⟨r, hr, rfl, hmatch, hword⟩⟩
  · obtain ⟨hwf, hword⟩ := encode_of_decode h hport
    exact ⟨hwf, decode_port h, fun _ => hword, fun htc => absurd htc hport⟩

/-- Settles O3: the decoder's two steps, with the deltas and the names written out. -/
theorem commandWordsDecodeInTwoSteps : Obligations.CommandWordsDecodeInTwoSteps := by
  intro w
  rw [decode_commandWord, decodeCommand, hoursDelta, minutesDelta]
  rfl

/-- Settles O4: the row of the decoded operation is matched, and a matched row is the row of that operation. -/
theorem everyCommandWordMatchesExactlyOneRow : Obligations.EveryCommandWordMatchesExactlyOneRow := by
  refine ⟨fun w => ?_, by decide⟩
  obtain ⟨r, hr, hinstr⟩ := decodeCommand_mem_rows w
  refine ⟨r, hr, (matches_row_iff r hr w).mpr hinstr.symm, ?_, fun q hq hmatch => ?_⟩
  · rw [decode_commandWord, hinstr]
  · have hdecoded : decodeCommand w = q.instr := (matches_row_iff q hq w).mp hmatch
    exact row_eq_of_instr_eq q hq r hr (hdecoded.symm.trans hinstr.symm)

/-- Settles O5: each format's equation, at each of its words. -/
theorem otherFormatsDecodeByTheirMap : Obligations.OtherFormatsDecodeByTheirMap := by
  refine ⟨fun g => ⟨decode_tickGenWord g false, decode_tickGenWord g true⟩, decode_pulseWord,
    fun b => ⟨decode_debouncerWord b false, decode_debouncerWord b true⟩,
    fun b => ⟨decode_buttonWord b false, decode_buttonWord b true⟩, fun f v hv => ?_, by decide,
    decode_displayWord false, decode_displayWord true⟩
  have hbits : (BitVec.ofNat 7 v).toNat = v := by rw [BitVec.toNat_ofNat, Nat.mod_eq_of_lt (by omega)]
  have hdecoded := decode_converterWord_of_le f (v := BitVec.ofNat 7 v) (by rwa [hbits])
  rwa [hbits] at hdecoded

/-- Settles O6: a word that fits decodes but for a converter's value above 99, so each rejection has one ground. -/
theorem onlyWideWordsAndBcdOutsideItsDomainAreRejected : Obligations.OnlyWideWordsAndBcdOutsideItsDomainAreRejected :=
  fun x => ⟨decode_eq_wordTooWide_iff x, decode_eq_bcdDomain_iff x⟩

/-- Settles O7: each word through the equation of its format. -/
theorem wordsWrittenFromTheMapDecode : Obligations.WordsWrittenFromTheMapDecode :=
  ⟨decode_commandWord 0b11111, decode_commandWord 0b01100, decode_commandWord 0b00011, decode_commandWord 0b00111,
    decode_tickGenWord .scan true, decode_buttonWord .dm true, decode_converterWord .m 59, decode_segmentWord 0b1011,
    decode_displayWord true⟩

/-- Settles O8: the step of a driven word, by what the word decodes to. -/
theorem stepRunsTheDecodedOperation : Obligations.StepRunsTheDecodedOperation := by
  intro s x rest hstim
  rw [step_of_driven hstim]
  exact ⟨fun i hi => runWord_of_decode_ok hi _, fun he => runWord_of_decode_error he _,
    fun he => runWord_of_decode_error he _⟩

end Sys2Proof.Machine
end

section
/-! The family 41_timebase.md: a run of the block as its cycles one after the other, the period law of a TickGenerator,
the waveform law of the PulseGenerator, and the time an untouched clock shows. -/

namespace Sys2Proof.Machine

/-! ### The timebase operations (R52, R53, R56, R57) -/

theorem tickNext_disabled (preload cnt : Nat) : tickNext preload false cnt = preload := rfl

theorem tickNext_enabled (preload cnt : Nat) : tickNext preload true cnt = if cnt = 0 then preload else cnt - 1 := rfl

theorem tickEvent_disabled (cnt : Nat) : tickEvent false cnt = false := rfl

theorem tickEvent_enabled (cnt : Nat) : tickEvent true cnt = decide (cnt = 0) := rfl

theorem exec_tgDisabled (g : TickGen) (s : State) : exec (.tgDisabled g) s = .next (tickStep g false s) := rfl

theorem exec_tgEnabled (g : TickGen) (s : State) : exec (.tgEnabled g) s = .next (tickStep g true s) := rfl

theorem exec_pgStep (s : State) :
    exec .pgStep s = .next ((s.showBlink (blinkLevel s.cfg.bl s.ph)).setPhase (phaseNext s.cfg.bl s.cfg.bh s.ph)) := rfl

theorem tickStep_tickCount (g : TickGen) (en : Bool) (s : State) :
    (tickStep g en s).tickCount g = tickNext (s.preload g) en (s.tickCount g) :=
  State.setTickCount_tickCount _ g _

theorem tickStep_preload (g : TickGen) (en : Bool) (s : State) : (tickStep g en s).preload g = s.preload g := by
  cases g <;> rfl

theorem tickStep_event (g : TickGen) (en : Bool) (s : State) :
    (tickStep g en s).out.event g = tickEvent en (s.tickCount g) := by
  cases g <;> rfl

/-- Settles O38: the disabled step of each generator, whose next counter is the preload. -/
theorem disabledTickGeneratorReloads : Obligations.DisabledTickGeneratorReloads := by
  refine ⟨fun g => decode_tickGenWord g false, fun s => ⟨?_, ?_⟩⟩
  · rw [exec_tgDisabled, tickStep_sec, tickNext_disabled, tickEvent_disabled]
  · rw [exec_tgDisabled, tickStep_scan, tickNext_disabled, tickEvent_disabled]

/-- Settles O39: the enabled step of each generator, at 0 and above. -/
theorem enabledTickGeneratorCountsDown : Obligations.EnabledTickGeneratorCountsDown := by
  refine ⟨fun g => decode_tickGenWord g true, fun s => ⟨?_, ?_⟩⟩
  · rw [exec_tgEnabled, tickStep_sec, tickNext_enabled, tickEvent_enabled]
  · rw [exec_tgEnabled, tickStep_scan, tickNext_enabled, tickEvent_enabled]

/-- Settles O40: PG_STEP writes the phase and the blink level, each by its own rule. -/
theorem pulseGeneratorStepsItsPhase : Obligations.PulseGeneratorStepsItsPhase := by
  refine ⟨decode_pulseWord, fun s => ?_⟩
  rw [exec_pgStep, blinkLevel, phaseNext]
  rfl

/-! ### The period law (R54) -/

/-- Where a counter with preload `preload` stands after `n` enabled cycles from its preload. -/
def countAfter (preload n : Nat) : Nat := preload - n % (preload + 1)

theorem countAfter_zero (preload : Nat) : countAfter preload 0 = preload := by
  rw [countAfter, Nat.zero_mod, Nat.sub_zero]

/-- The counter is at 0 in the last cycle of a period only. -/
theorem countAfter_eq_zero_iff (preload n : Nat) : countAfter preload n = 0 ↔ preload + 1 ∣ n + 1 := by
  have hlt : n % (preload + 1) < preload + 1 := Nat.mod_lt n preload.succ_pos
  rw [Nat.dvd_iff_mod_eq_zero, Nat.succ_mod_succ_eq_zero_iff, countAfter]
  omega

/-- An enabled cycle takes the counter from its place after `n` enabled cycles to its place after `n + 1`. -/
theorem tickNext_countAfter (preload n : Nat) :
    tickNext preload true (countAfter preload n) = countAfter preload (n + 1) := by
  rw [tickNext_enabled]
  split
  · next hzero =>
    have hwrap : (n + 1) % (preload + 1) = 0 :=
      Nat.mod_eq_zero_of_dvd ((countAfter_eq_zero_iff preload n).mp hzero)
    rw [countAfter, hwrap, Nat.sub_zero]
  · next hpos =>
    have hlt : n % (preload + 1) + 1 < preload + 1 := by rw [countAfter] at hpos; omega
    have hstep : (n + 1) % (preload + 1) = n % (preload + 1) + 1 := by rw [← Nat.mod_add_mod, Nat.mod_eq_of_lt hlt]
    rw [countAfter, countAfter, hstep, Nat.sub_add_eq]

/-- The event comes exactly in the last cycle of each period. -/
theorem tickEvent_countAfter (preload n : Nat) :
    tickEvent true (countAfter preload n) = decide (preload + 1 ∣ n + 1) := by
  rw [tickEvent_enabled, decide_eq_decide, countAfter_eq_zero_iff]

/-- The last cycles of the periods, as R54 lists them. -/
theorem succ_dvd_succ_iff (preload n : Nat) : preload + 1 ∣ n + 1 ↔ ∃ k, n = preload + k * (preload + 1) := by
  constructor
  · rintro ⟨k, hk⟩
    cases k with
    | zero => cases hk
    | succ k => exact ⟨k, by rw [Nat.mul_succ, Nat.mul_comm] at hk; omega⟩
  · rintro ⟨k, rfl⟩
    exact ⟨k + 1, by ring⟩

/-- An operation that always answers a next state, performed `n` times. -/
theorem performAll_replicate {i : Instr} {f : State → State} (hexec : ∀ s, exec i s = .next (f s)) (n : Nat) (s : State) :
    performAll (List.replicate n i) s = .next (f^[n] s) := by
  induction n generalizing s with
  | zero => rfl
  | succ n ih => rw [List.replicate_succ, performAll, hexec, andThen_next, ih, Function.iterate_succ_apply]

theorem tickStep_iterate_preload (g : TickGen) (s : State) (n : Nat) :
    ((tickStep g true)^[n] s).preload g = s.preload g := by
  induction n with
  | zero => rfl
  | succ n ih => rw [Function.iterate_succ_apply', tickStep_preload, ih]

theorem tickStep_iterate_tickCount {g : TickGen} {s : State} (h : s.tickCount g = s.preload g) (n : Nat) :
    ((tickStep g true)^[n] s).tickCount g = countAfter (s.preload g) n := by
  induction n with
  | zero => rw [countAfter_zero]; exact h
  | succ n ih =>
    rw [Function.iterate_succ_apply', tickStep_tickCount, tickStep_iterate_preload, ih, tickNext_countAfter]

/-- Settles O41: from its preload the counter is where `countAfter` puts it, which is 0 once a period. -/
theorem tickGeneratorFiresOncePerPeriod : Obligations.TickGeneratorFiresOncePerPeriod := by
  refine ⟨fun cfg g => by cases g <;> rfl, fun g s t h => ?_, fun g s n h => ?_⟩
  · cases h
    exact (tickStep_tickCount g false s).trans (tickStep_preload g false s).symm
  · refine ⟨_, performAll_replicate (exec_tgEnabled g) (n + 1) s, ?_⟩
    rw [Function.iterate_succ_apply', tickStep_event, tickStep_iterate_tickCount h, tickEvent_countAfter,
      decide_eq_true_iff, succ_dvd_succ_iff]

/-! ### What a cycle writes, register by register -/

theorem afterCycle_cfg (inp : Inputs) (s : State) (d : Digit) : (afterCycle inp s d).cfg = s.cfg := rfl

theorem afterCycle_secCnt (inp : Inputs) (s : State) (d : Digit) :
    (afterCycle inp s d).secCnt = tickNext s.cfg.pT inp.tickEn s.secCnt := rfl

theorem afterCycle_ph (inp : Inputs) (s : State) (d : Digit) :
    (afterCycle inp s d).ph = phaseNext s.cfg.bl s.cfg.bh s.ph := rfl

theorem afterCycle_blink (inp : Inputs) (s : State) (d : Digit) :
    (afterCycle inp s d).out.blink = blinkLevel s.cfg.bl s.ph := rfl

theorem afterCycle_tc (inp : Inputs) (s : State) (d : Digit) :
    (afterCycle inp s d).tc = commandTime (commandOf inp s) s.tc := rfl

theorem afterCycle_button (inp : Inputs) (s : State) (d : Digit) (b : Button) :
    (afterCycle inp s d).button b = buttonNext s.cfg.w (s.button b) (rawOf inp b) := by
  cases b <;> rfl

/-! ### A run of the block, cycle by cycle -/

/-- What the environment drives later plays no part in a cycle, so a run of the block is its first cycle and the run
that goes on from there. -/
theorem runBlock_cons_eq (inp : Inputs) (ins : List Inputs) (s : State) :
    runBlock (inp :: ins) s = andThen (blockCycle inp s) (runBlock ins) := by
  rw [runBlock_cons]
  cases hslot : (slotDigits s.cfg s.tc)[s.muxIdx]? with
  | none =>
    rw [blockCycle_of_noSlot inp hslot, blockCycle_of_noSlot (s := s.lineUp _) inp hslot]
    rfl
  | some d =>
    rw [blockCycle_of_slot inp hslot, blockCycle_of_slot (s := s.lineUp _) inp hslot]
    rfl

theorem runBlock_append (xs ys : List Inputs) (s : State) :
    runBlock (xs ++ ys) s = andThen (runBlock xs s) (runBlock ys) := by
  induction xs generalizing s with
  | nil => rfl
  | cons x xs ih =>
    simp only [List.cons_append, runBlock_cons_eq, andThen_assoc]
    congr 1
    funext t
    exact ih t

/-- A run over one input vector more: the run, and its last cycle from where it leads. -/
theorem runBlock_concat {ins : List Inputs} {s t : State} (inp : Inputs) (h : t.Inv) (hrun : runBlock ins s = .next t) :
    ∃ d, runBlock (ins ++ [inp]) s = .next (afterCycle inp t d) ∧ (afterCycle inp t d).Inv := by
  obtain ⟨d, hd⟩ := h.selectedDigit
  have hcycle : blockCycle inp t = .next (afterCycle inp t d) := blockCycle_of_slot inp hd
  refine ⟨d, ?_, blockCycle_inv h hcycle⟩
  rw [runBlock_append, hrun, andThen_next, runBlock_cons_eq, hcycle, andThen_next, runBlock_nil]

/-- What holds before a run and is kept by each of its cycles holds after it. `Q` speaks of the inputs driven so far. -/
theorem runBlock_reaches {Q : List Inputs → State → Prop} {s : State} {ins : List Inputs} (h : s.Inv) (hstart : Q [] s)
    (hcycle : ∀ inp ∈ ins, ∀ past t d, Q past t → Q (past ++ [inp]) (afterCycle inp t d)) :
    ∃ t, runBlock ins s = .next t ∧ t.Inv ∧ Q ins t := by
  induction ins using List.reverseRecOn with
  | nil => exact ⟨s, rfl, h, hstart⟩
  | append_singleton ins inp ih =>
    obtain ⟨t, hrun, hinv, hQ⟩ := ih fun x hx => hcycle x (List.mem_append_left [inp] hx)
    obtain ⟨d, hrun', hinv'⟩ := runBlock_concat inp hinv hrun
    exact ⟨_, hrun', hinv', hcycle inp List.mem_concat_self ins t d hQ⟩

/-! ### The waveform law (R58) -/

/-- The phase counts the cycles since construction, modulo the period. -/
theorem runBlock_init_phase {cfg : Config} (h : cfg.Valid) (ins : List Inputs) :
    ∃ t, runBlock ins (State.init cfg) = .next t ∧ t.Inv ∧
      t.cfg = cfg ∧ t.ph = ins.length % (cfg.bl + cfg.bh) := by
  refine runBlock_reaches (Q := fun past t => t.cfg = cfg ∧ t.ph = past.length % (cfg.bl + cfg.bh))
    (init_inv h) ⟨rfl, (Nat.zero_mod _).symm⟩ ?_
  rintro inp - past t d ⟨rfl, hph⟩
  refine ⟨afterCycle_cfg inp t d, ?_⟩
  rw [afterCycle_ph, phaseNext, hph, Nat.mod_add_mod, List.length_append, List.length_singleton]

/-- Settles O42: the last cycle shows the level of the phase the cycles before it have reached. -/
theorem blinkFollowsItsWaveform : Obligations.BlinkFollowsItsWaveform := by
  intro cfg ins n hvalid hlen
  obtain rfl | ⟨past, inp, rfl⟩ := ins.eq_nil_or_concat'
  · cases hlen
  obtain ⟨t, hrun, hinv, rfl, hph⟩ := runBlock_init_phase hvalid past
  obtain ⟨d, hlast, _⟩ := runBlock_concat inp hinv hrun
  refine ⟨_, hlast, ?_⟩
  have hn : past.length = n := by simpa using hlen
  rw [afterCycle_blink, blinkLevel, decide_eq_true_iff, hph, hn]

/-! ### The untouched clock (R99, R106) -/

theorem secondsOfDay_lt (t : TimeValue) : secondsOfDay t < 86400 := by
  rw [secondsOfDay]
  omega

/-- The minutes step of a tick is the unit step by the carry of the seconds. -/
theorem tickMinutes_eq (t : TimeValue) : tickMinutes t = unitStep t.minutes (unitStep t.seconds .plus).2 := by
  rw [tickMinutes, unitStep_sixty_up t.seconds]
  split <;> simp [unitStep_zero]

/-- A tick is one second of the day: each unit's carry pays for its roll over, and the hours' is a day. -/
theorem secondsOfDay_tickTime (t : TimeValue) : secondsOfDay (tickTime t) = (secondsOfDay t + 1) % 86400 := by
  have hseconds := unitStep_balance t.seconds .plus
  have hminutes := unitStep_balance t.minutes (unitStep t.seconds .plus).2
  have hhours := addMod_val t.hours (tickMinutes t).2.toInt
  rw [tickMinutes_eq] at hhours
  rw [Delta.toInt_plus] at hseconds
  simp only [secondsOfDay, tickTime, tickMinutes_eq]
  omega

/-- A released button whose line stays low stays as it was reset. -/
theorem buttonNext_reset (w : Nat) : buttonNext w ButtonRegs.reset false = ButtonRegs.reset := rfl

/-- With idle debouncers no request reaches TimeCore: the time moves by the seconds event alone. -/
theorem afterCycle_tc_of_idle {s : State} (hidle : ∀ b, s.button b = ButtonRegs.reset) (inp : Inputs) (d : Digit) :
    (afterCycle inp s d).tc = if tickEvent inp.tickEn s.secCnt then tickTime s.tc else s.tc := by
  have hih : s.btnIh = ButtonRegs.reset := hidle .ih
  have hdh : s.btnDh = ButtonRegs.reset := hidle .dh
  have him : s.btnIm = ButtonRegs.reset := hidle .im
  have hdm : s.btnDm = ButtonRegs.reset := hidle .dm
  have hhours : hoursRequest s = .zero := by rw [hoursRequest, hih, hdh]; rfl
  have hminutes : minutesRequest s = .zero := by rw [minutesRequest, him, hdm]; rfl
  rw [afterCycle_tc, commandTime_commandOf, hhours, hminutes, tickTime_eq_advanceSeconds]
  rfl

/-- The state of a clock `n` cycles after construction that ticks and that nobody touches. -/
structure UntouchedAfter (cfg : Config) (n : Nat) (s : State) : Prop where
  cfg_eq : s.cfg = cfg
  idle : ∀ b, s.button b = ButtonRegs.reset
  secCnt_eq : s.secCnt = countAfter cfg.pT n
  time_eq : secondsOfDay s.tc = (secondsOfDay cfg.seed + n / (cfg.pT + 1)) % 86400

theorem untouchedAfter_init (cfg : Config) : UntouchedAfter cfg 0 (State.init cfg) where
  cfg_eq := rfl
  idle := init_button cfg
  secCnt_eq := (countAfter_zero cfg.pT).symm
  time_eq := by
    rw [Nat.zero_div, Nat.add_zero]
    exact (Nat.mod_eq_of_lt (secondsOfDay_lt cfg.seed)).symm

theorem UntouchedAfter.cycle {cfg : Config} {n : Nat} {s : State} (h : UntouchedAfter cfg n s) {inp : Inputs}
    (hen : inp.tickEn = true) (hraw : ∀ b, rawOf inp b = false) (d : Digit) :
    UntouchedAfter cfg (n + 1) (afterCycle inp s d) := by
  obtain ⟨rfl, hidle, hcnt, htime⟩ := h
  refine ⟨afterCycle_cfg inp s d, fun b => ?_, ?_, ?_⟩
  · rw [afterCycle_button, hidle b, hraw b, buttonNext_reset]
  · rw [afterCycle_secCnt, hen, hcnt, tickNext_countAfter]
  · rw [afterCycle_tc_of_idle hidle, hen, hcnt, tickEvent_countAfter, Nat.succ_div]
    by_cases hfires : s.cfg.pT + 1 ∣ n + 1
    · rw [if_pos (decide_eq_true hfires), if_pos hfires, secondsOfDay_tickTime, htime, Nat.mod_add_mod, Nat.add_assoc]
    · rw [if_neg (by simpa using hfires), if_neg hfires, htime, Nat.add_zero (_ / _)]

/-- Settles O37: the cycles one by one, each with the tick enabled and no line high. -/
theorem untouchedClockKeepsTime : Obligations.UntouchedClockKeepsTime := by
  intro cfg ins hvalid hquiet
  obtain ⟨t, hrun, _, huntouched⟩ := runBlock_reaches (Q := fun past t => UntouchedAfter cfg past.length t)
    (init_inv hvalid) (untouchedAfter_init cfg) (ins := ins) fun inp hmem past t d h => by
      obtain ⟨hen, hraw⟩ := hquiet inp hmem
      rw [List.length_append]
      exact h.cycle hen hraw d
  exact ⟨t, hrun, huntouched.time_eq⟩

end Sys2Proof.Machine
end

section
/-! The family 42_button_input.md: the steps of a debouncer and of a ButtonInput, the debouncer's window, and what a
button shows in a run of the block. -/

namespace Sys2Proof.Machine

/-! ### The button operations (R60 to R63, R66) -/

theorem exec_debounceOp (b : Button) (i : Bool) (s : State) : exec (debounceOp b i) s = .next (debounceStep b i s) := by
  cases i <;> rfl

theorem exec_btnStep (b : Button) (raw : Bool) (s : State) : exec (.btnStep b raw) s = .next (buttonStep b raw s) := rfl

theorem pulseOut_eq_decide (c : Nat) : pulseOut c = decide (c = 0) := rfl

theorem pulseOut_eq_true_iff (c : Nat) : pulseOut c = true ↔ c = 0 := beq_iff_eq

/-- Settles O44: the debouncer's shared step, with its next counter and its pulse written out. -/
theorem debouncerStepsItsCounter : Obligations.DebouncerStepsItsCounter := by
  intro b i s
  obtain ⟨hregs, hout, hframe⟩ := debounceStep_spec b i s
  rw [debounceNext] at hregs
  rw [pulseOut_eq_decide] at hout
  exact ⟨decode_debouncerWord b i, _, exec_debounceOp b i s, hregs, hout, hframe⟩

/-- Settles O45: the ButtonInput's shared step, with its next registers and its outputs written out. -/
theorem buttonStepsItsRegisters : Obligations.ButtonStepsItsRegisters := by
  intro b raw s
  obtain ⟨hregs, hout, hframe⟩ := buttonStep_spec b raw s
  rw [buttonNext, debounceNext, risingEdge] at hregs
  rw [buttonOut, risingEdge, pulseOut_eq_decide] at hout
  exact ⟨decode_buttonWord b raw, _, exec_btnStep b raw s, hout, hregs, hframe⟩

/-! ### The window of a debouncer (R64) -/

/-- Where the counter of a debouncer of width `w` stands `k` cycles after a trigger that no other follows: it counts up
from 2, wraps to 0 for one cycle, and is idle from the end of the window on. -/
def windowCount (w k : Nat) : Nat := if k + 1 < 2 ^ w then k + 1 else if k + 1 = 2 ^ w then 0 else 1

/-- The counter has the three distinct values 0, 1 and 2 that its rule needs (R59). -/
theorem four_le_window {w : Nat} (hw : 2 ≤ w) : 4 ≤ 2 ^ w := Nat.pow_le_pow_right (n := 2) (by decide) hw

theorem windowCount_zero {w : Nat} (hw : 2 ≤ w) : windowCount w 0 = 1 := by
  have hwindow := four_le_window hw
  rw [windowCount, if_pos (by omega)]

theorem windowCount_of_ended {w k : Nat} (h : 2 ^ w ≤ k) : windowCount w k = 1 := by
  rw [windowCount, if_neg (by omega), if_neg (by omega)]

/-- The counter is at 0 in the last cycle of the window only. -/
theorem windowCount_eq_zero_iff (w k : Nat) : windowCount w k = 0 ↔ k + 1 = 2 ^ w := by
  unfold windowCount
  split
  · omega
  · split <;> omega

/-- A cycle takes the counter from its place in the window to the next, on any input but in the idle cycles: the first
is the trigger, and those after the window are not. -/
theorem debounceNext_windowCount {w k : Nat} {i : Bool} (hw : 2 ≤ w) (htrigger : k = 0 → i = true)
    (hquiet : 2 ^ w ≤ k → i = false) : debounceNext w (windowCount w k) i = windowCount w (k + 1) := by
  have hwindow := four_le_window hw
  obtain hafter | hpulse | hcounting : 2 ^ w ≤ k ∨ k + 1 = 2 ^ w ∨ k + 1 < 2 ^ w := by omega
  · rw [windowCount_of_ended hafter, windowCount_of_ended (Nat.le_succ_of_le hafter), hquiet hafter]
    rfl
  · rw [(windowCount_eq_zero_iff w k).mpr hpulse, windowCount_of_ended hpulse.ge]
    rfl
  · have hcount : windowCount w k = k + 1 := if_pos hcounting
    cases k with
    | zero =>
      rw [hcount, htrigger rfl, windowCount, if_pos (by omega)]
      rfl
    | succ k =>
      rw [hcount, debounceNext, if_neg (by omega), if_neg (by omega), windowCount]
      split_ifs with hnext hwrap
      · exact Nat.mod_eq_of_lt hnext
      · rw [hwrap, Nat.mod_self]
      · omega

/-- The timing law for whatever holds a debouncer: from an idle counter and a trigger on, the counter follows the window
up to its end, whatever the inputs after the trigger are. -/
theorem foldl_windowCount {σ ι : Type} {w : Nat} {next : σ → ι → σ} {count : σ → Nat} {input : σ → ι → Bool} {x : σ}
    (hw : 2 ≤ w) (hstep : ∀ x a, count (next x a) = debounceNext w (count x) (input x a)) (hidle : count x = 1)
    (as : List ι) (htrigger : ∀ a ∈ as.head?, input x a = true) (hlen : as.length ≤ 2 ^ w) :
    count (as.foldl next x) = windowCount w as.length := by
  induction as using List.reverseRecOn with
  | nil => rw [List.foldl_nil, hidle, List.length_nil, windowCount_zero hw]
  | append_singleton as a ih =>
    rw [List.length_append, List.length_singleton] at hlen ⊢
    have hcount := ih (fun c hc => htrigger c (List.mem_head?_append_of_mem_head? hc)) (by omega)
    rw [List.foldl_concat, hstep, hcount]
    refine debounceNext_windowCount hw (fun hfirst => ?_) (by omega)
    obtain rfl := List.eq_nil_of_length_eq_zero hfirst
    exact htrigger a rfl

/-! ### A debouncer driven alone -/

/-- A debouncer driven alone folds its next-state function over its inputs, and its last pulse is that of the counter
before. -/
theorem performAll_debounceOp_concat (b : Button) (is : List Bool) (i : Bool) (s : State) :
    ∃ t, performAll ((is ++ [i]).map (debounceOp b)) s = .next t ∧
      (t.button b).c = (is ++ [i]).foldl (debounceNext s.cfg.w) (s.button b).c ∧
      (t.out.button b).pressed = pulseOut (is.foldl (debounceNext s.cfg.w) (s.button b).c) := by
  induction is generalizing s with
  | nil =>
    obtain ⟨hregs, hout, _⟩ := debounceStep_spec b i s
    refine ⟨debounceStep b i s, ?_, congrArg ButtonRegs.c hregs, congrArg ButtonOut.pressed hout⟩
    rw [List.nil_append, List.map_singleton, performAll, exec_debounceOp, andThen_next, performAll]
  | cons j is ih =>
    obtain ⟨hregs, _, hframe⟩ := debounceStep_spec b j s
    obtain ⟨t, hrun, hcount, hpulse⟩ := ih (debounceStep b j s)
    rw [hregs, hframe.sameEnvironment.cfg_eq] at hcount hpulse
    refine ⟨t, ?_, hcount, hpulse⟩
    rw [List.cons_append, List.map_cons, performAll, exec_debounceOp, andThen_next, hrun]

/-- Settles O46: the counter follows the window to the last cycle and to the one after it, and the pulse is the last
cycle's. -/
theorem debouncerPulsesOncePerWindow : Obligations.DebouncerPulsesOncePerWindow := by
  intro b s is hw hidle hlen
  have hwindow (js : List Bool) (htrigger : ∀ j ∈ js.head?, j = true) (hjs : js.length ≤ 2 ^ s.cfg.w) :
      js.foldl (debounceNext s.cfg.w) (s.button b).c = windowCount s.cfg.w js.length :=
    foldl_windowCount (count := id) (input := fun _ j => j) hw (fun _ _ => rfl) hidle js htrigger hjs
  obtain hnil | ⟨past, i, hsplit⟩ := (true :: is).eq_nil_or_concat'
  · cases hnil
  have hlength : past.length = is.length := by simpa using congrArg List.length hsplit.symm
  have htrigger : ∀ j ∈ past.head?, j = true := by
    intro j hj
    have hhead : j ∈ (past ++ [i]).head? := List.mem_head?_append_of_mem_head? hj
    rw [← hsplit] at hhead
    exact (Option.some_inj.mp hhead).symm
  obtain ⟨t, hrun, hcount, hpulse⟩ := performAll_debounceOp_concat b past i s
  rw [← hsplit] at hrun hcount
  refine ⟨t, hrun, ?_, ?_⟩
  · rw [hcount, hwindow (true :: is) (by simp) hlen, List.length_cons, windowCount]
    split_ifs <;> omega
  · rw [hpulse, hwindow past htrigger (by omega), hlength, pulseOut_eq_true_iff, windowCount_eq_zero_iff]

/-! ### A button in a run of the block -/

theorem afterCycle_outButton (inp : Inputs) (s : State) (d : Digit) (b : Button) :
    (afterCycle inp s d).out.button b = buttonOut (s.button b) := by
  cases b <;> rfl

/-- A button's registers after the cycles `ins`: each button follows its own raw line, whatever the block does beside
it. -/
def buttonAfter (w : Nat) (b : Button) (r : ButtonRegs) (ins : List Inputs) : ButtonRegs :=
  ins.foldl (fun r inp => buttonNext w r (rawOf inp b)) r

theorem buttonAfter_concat (w : Nat) (b : Button) (r : ButtonRegs) (ins : List Inputs) (inp : Inputs) :
    buttonAfter w b r (ins ++ [inp]) = buttonNext w (buttonAfter w b r ins) (rawOf inp b) :=
  List.foldl_concat _ r inp ins

theorem runBlock_button {s : State} (h : s.Inv) (b : Button) (ins : List Inputs) :
    ∃ t, runBlock ins s = .next t ∧ t.Inv ∧
      t.cfg = s.cfg ∧ t.button b = buttonAfter s.cfg.w b (s.button b) ins := by
  refine runBlock_reaches (Q := fun past t => t.cfg = s.cfg ∧ t.button b = buttonAfter s.cfg.w b (s.button b) past)
    h ⟨rfl, rfl⟩ ?_
  rintro inp - past t d ⟨hcfg, hregs⟩
  exact ⟨hcfg, by rw [afterCycle_button, buttonAfter_concat, hcfg, hregs]⟩

/-- The last cycle of a run shows each button's edge and pulse of the registers the cycles before have reached. -/
theorem runBlock_concat_showsButton {s : State} (h : s.Inv) (b : Button) (past : List Inputs) (inp : Inputs) :
    ∃ t, runBlock (past ++ [inp]) s = .next t ∧
      t.out.button b = buttonOut (buttonAfter s.cfg.w b (s.button b) past) := by
  obtain ⟨t, hrun, hinv, _, hregs⟩ := runBlock_button h b past
  obtain ⟨d, hlast, _⟩ := runBlock_concat inp hinv hrun
  exact ⟨_, hlast, by rw [afterCycle_outButton, hregs]⟩

/-- Settles O48: the edge is the trigger, and the pulse in the last cycle is that of the counter the cycles before have
reached in the window. -/
theorem pressesPulseAfterOneWindow : Obligations.PressesPulseAfterOneWindow := by
  intro s b ins hinv hs2 hprev hidle hpos hlen
  obtain rfl | ⟨past, inp, rfl⟩ := ins.eq_nil_or_concat'
  · cases hpos
  obtain ⟨_, hw, _⟩ := hinv.valid
  have hedge : risingEdge (s.button b) = true := by rw [risingEdge, hs2, hprev]; rfl
  rw [List.length_append, List.length_singleton] at hlen ⊢
  have hcount : (buttonAfter s.cfg.w b (s.button b) past).c = windowCount s.cfg.w past.length :=
    foldl_windowCount (count := ButtonRegs.c) (input := fun r _ => risingEdge r) hw (fun _ _ => rfl) hidle past
      (fun _ _ => hedge) (by omega)
  obtain ⟨t, hrun, hshown⟩ := runBlock_concat_showsButton hinv b past inp
  refine ⟨t, hrun, ?_⟩
  rw [hshown, buttonOut, hcount, pulseOut_eq_true_iff, windowCount_eq_zero_iff]

/-! ### The latency of the synchroniser (R67) -/

theorem rawBefore_concat_zero (ins : List Inputs) (inp : Inputs) (b : Button) :
    rawBefore (ins ++ [inp]) b 0 = rawOf inp b := by
  simp [rawBefore]

theorem rawBefore_concat_succ (ins : List Inputs) (inp : Inputs) (b : Button) (d : Nat) :
    rawBefore (ins ++ [inp]) b (d + 1) = rawBefore ins b d := by
  simp [rawBefore]

/-- From reset the two synchroniser stages and the edge history hold the raw line of the last three cycles. -/
theorem buttonAfter_reset_line (w : Nat) (b : Button) (ins : List Inputs) :
    (buttonAfter w b ButtonRegs.reset ins).s1 = rawBefore ins b 0 ∧
      (buttonAfter w b ButtonRegs.reset ins).s2 = rawBefore ins b 1 ∧
      (buttonAfter w b ButtonRegs.reset ins).prev = rawBefore ins b 2 := by
  induction ins using List.reverseRecOn with
  | nil => exact ⟨rfl, rfl, rfl⟩
  | append_singleton ins inp ih =>
    obtain ⟨hs1, hs2, _⟩ := ih
    rw [buttonAfter_concat, rawBefore_concat_zero, rawBefore_concat_succ, rawBefore_concat_succ]
    exact ⟨rfl, hs1, hs2⟩

theorem risingEdge_buttonAfter_reset (w : Nat) (b : Button) (ins : List Inputs) :
    risingEdge (buttonAfter w b ButtonRegs.reset ins) = (rawBefore ins b 1 && !rawBefore ins b 2) := by
  obtain ⟨_, hs2, hprev⟩ := buttonAfter_reset_line w b ins
  rw [risingEdge, hs2, hprev]

/-- Settles O47: the last cycle shows the edge of the registers before it, one cycle nearer to the raw line. -/
theorem edgesFollowTheRawLineByTwoCycles : Obligations.EdgesFollowTheRawLineByTwoCycles := by
  intro cfg ins b hvalid hne
  obtain rfl | ⟨past, inp, rfl⟩ := ins.eq_nil_or_concat'
  · exact absurd rfl hne
  obtain ⟨t, hrun, hshown⟩ := runBlock_concat_showsButton (init_inv hvalid) b past inp
  refine ⟨t, hrun, ?_⟩
  rw [hshown, init_button, rawBefore_concat_succ, rawBefore_concat_succ]
  exact risingEdge_buttonAfter_reset cfg.w b past

/-! ### A line held from construction (R68) -/

theorem rawBefore_held {ins : List Inputs} {b : Button} (hheld : ∀ inp ∈ ins, rawOf inp b = true) (d : Nat) :
    rawBefore ins b d = decide (d < ins.length) := by
  induction ins using List.reverseRecOn generalizing d with
  | nil => rfl
  | append_singleton ins inp ih =>
    cases d with
    | zero => rw [rawBefore_concat_zero, hheld inp List.mem_concat_self]; simp
    | succ d => rw [rawBefore_concat_succ, ih fun x hx => hheld x (List.mem_append_left [inp] hx)]; simp

/-- A held line has its one edge two cycles after construction. -/
theorem risingEdge_held (w : Nat) {ins : List Inputs} {b : Button} (hheld : ∀ inp ∈ ins, rawOf inp b = true) :
    risingEdge (buttonAfter w b ButtonRegs.reset ins) = decide (ins.length = 2) := by
  rw [risingEdge_buttonAfter_reset, rawBefore_held hheld, rawBefore_held hheld, ← decide_not, ← Bool.decide_and,
    decide_eq_decide]
  omega

/-- So its debouncer is triggered once, and follows one window from there. -/
theorem buttonAfter_held_count {w : Nat} (hw : 2 ≤ w) {ins : List Inputs} {b : Button}
    (hheld : ∀ inp ∈ ins, rawOf inp b = true) :
    (buttonAfter w b ButtonRegs.reset ins).c = windowCount w (ins.length - 2) := by
  induction ins using List.reverseRecOn with
  | nil => exact (windowCount_zero hw).symm
  | append_singleton ins inp ih =>
    have hpast : ∀ x ∈ ins, rawOf x b = true := fun x hx => hheld x (List.mem_append_left [inp] hx)
    have hnext : (buttonAfter w b ButtonRegs.reset (ins ++ [inp])).c =
        debounceNext w (windowCount w (ins.length - 2)) (decide (ins.length = 2)) := by
      rw [buttonAfter_concat, buttonNext, ih hpast, risingEdge_held w hpast]
    rw [hnext, List.length_append, List.length_singleton]
    obtain hbefore | hfrom := lt_or_ge ins.length 2
    · have hwaiting : ins.length + 1 - 2 = 0 := by omega
      rw [Nat.sub_eq_zero_of_le hbefore.le, hwaiting, decide_eq_false hbefore.ne, windowCount_zero hw]
      rfl
    · have hwindow := four_le_window hw
      rw [Nat.sub_add_comm hfrom]
      refine debounceNext_windowCount hw (fun hedge => decide_eq_true ?_) (fun hafter => decide_eq_false ?_) <;> omega

/-- Settles O49: the one window of a held line starts two cycles after construction. -/
theorem heldLinesPulseOnce : Obligations.HeldLinesPulseOnce := by
  intro cfg ins b n hvalid hlen hheld
  obtain rfl | ⟨past, inp, rfl⟩ := ins.eq_nil_or_concat'
  · cases hlen
  have ⟨_, hw, _⟩ := hvalid
  have hn : past.length = n := by simpa using hlen
  have hpast : ∀ x ∈ past, rawOf x b = true := fun x hx => hheld x (List.mem_append_left [inp] hx)
  have hcount := buttonAfter_held_count hw hpast
  have hlast : past.length - 2 + 1 = 2 ^ cfg.w ↔ n = 2 ^ cfg.w + 1 := by
    have hwindow := four_le_window hw
    omega
  obtain ⟨t, hrun, hshown⟩ := runBlock_concat_showsButton (init_inv hvalid) b past inp
  refine ⟨t, hrun, ?_⟩
  rw [hshown, buttonOut, init_button, pulseOut_eq_true_iff, ← hlast, ← windowCount_eq_zero_iff, ← hcount]
  rfl

end Sys2Proof.Machine
end

section
/-! The family 43_digits.md: the digits of a number, what a converter does inside and outside its domain, and the words and
digits that a cycle of the block sends to its converters, its encoder and its multiplexer. -/

namespace Sys2Proof.Machine

/-! ### BCD_SPLIT (R69) -/

theorem bcdPair_tens_toNat {v : Nat} (h : v ≤ 99) : (bcdPair v).tens.toNat = v / 10 := by
  rw [bcdPair, tensDigit, BitVec.toNat_ofNat, Nat.mod_eq_of_lt (by omega)]

theorem bcdPair_ones_toNat (v : Nat) : (bcdPair v).ones.toNat = v % 10 := by
  rw [bcdPair, onesDigit, BitVec.toNat_ofNat, Nat.mod_eq_of_lt (by omega)]

theorem exec_bcdSplit_of_le (f : Converter) {v : BcdValue} (h : v.toNat ≤ 99) (s : State) :
    exec (.bcdSplit f v) s = .next (s.showDigits f (bcdPair v.toNat)) :=
  execBcdSplit_eq_next.mpr ⟨(inDomain_iff v).mpr h, rfl⟩

theorem exec_bcdSplit_of_gt (f : Converter) {v : BcdValue} (h : 99 < v.toNat) (s : State) :
    exec (.bcdSplit f v) s = .refused .bcdDomain :=
  if_neg (mt (inDomain_iff v).mp (Nat.not_le.mpr h))

/-- Settles O50: inside the domain the converter shows the pair of the value's digits, outside it both the decoder and the
operation refuse. -/
theorem bcdSplitGivesTensAndOnes : Obligations.BcdSplitGivesTensAndOnes := by
  refine fun f v s => ⟨fun hin => ⟨decode_converterWord_of_le f hin, _, exec_bcdSplit_of_le f hin s, ?_, ?_, ?_⟩,
    fun hout => ⟨decode_converterWord_of_gt f hout, exec_bcdSplit_of_gt f hout s⟩⟩
  · rw [State.showDigits_digits, bcdPair_tens_toNat hin]
  · rw [State.showDigits_digits, bcdPair_ones_toNat]
  · exact showDigits_onlyChanges f _ s

/-! ### SEG_ENCODE (R71) -/

/-- Settles O51: the sixteen words by computation, and each operation as the encoder's step with its own digit. -/
theorem segmentEncoderGivesItsTable : Obligations.SegmentEncoderGivesItsTable :=
  ⟨by decide, fun s =>
    ⟨exec_decodeSegment 0x0 s, exec_decodeSegment 0x1 s, exec_decodeSegment 0x2 s, exec_decodeSegment 0x3 s,
      exec_decodeSegment 0x4 s, exec_decodeSegment 0x5 s, exec_decodeSegment 0x6 s, exec_decodeSegment 0x7 s,
      exec_decodeSegment 0x8 s, exec_decodeSegment 0x9 s, exec_decodeSegment 0xA s, exec_decodeSegment 0xB s,
      exec_decodeSegment 0xC s, exec_decodeSegment 0xD s, exec_decodeSegment 0xE s, exec_decodeSegment 0xF s⟩⟩

/-! ### The digits of a TimeValue (R70) -/

theorem fieldOf_lt_sixty (f : Converter) (t : TimeValue) : fieldOf f t < 60 := by
  cases f with
  | h => exact t.hours.isLt.trans (by decide)
  | m => exact t.minutes.isLt
  | s => exact t.seconds.isLt

theorem fieldOf_tens (f : Converter) (t : TimeValue) : (bcdPair (fieldOf f t)).tens.toNat = fieldOf f t / 10 :=
  bcdPair_tens_toNat ((fieldOf_lt_sixty f t).le.trans (by decide))

theorem fieldOf_tens_le (f : Converter) (t : TimeValue) : (bcdPair (fieldOf f t)).tens.toNat ≤ 5 := by
  have hfield := fieldOf_lt_sixty f t
  rw [fieldOf_tens]
  omega

theorem bcdPair_ones_le (v : Nat) : (bcdPair v).ones.toNat ≤ 9 := by
  rw [bcdPair_ones_toNat]
  omega

theorem hours_tens_le (t : TimeValue) : (bcdPair (fieldOf .h t)).tens.toNat ≤ 2 := by
  have hhours : fieldOf .h t < 24 := t.hours.isLt
  rw [fieldOf_tens]
  omega

theorem hours_ones_le_of_tens (t : TimeValue) (h : (bcdPair (fieldOf .h t)).tens.toNat = 2) :
    (bcdPair (fieldOf .h t)).ones.toNat ≤ 3 := by
  have hhours : fieldOf .h t < 24 := t.hours.isLt
  rw [fieldOf_tens] at h
  rw [bcdPair_ones_toNat]
  omega

theorem ten_mul_tens_add_ones (f : Converter) (t : TimeValue) :
    10 * (bcdPair (fieldOf f t)).tens.toNat + (bcdPair (fieldOf f t)).ones.toNat = fieldOf f t := by
  rw [fieldOf_tens, bcdPair_ones_toNat]
  exact Nat.div_add_mod _ 10

/-! ### The digits of the slots (R103, R104) -/

/-- A slot's digit is the one its own source gives. -/
theorem slotDigits_getElem?_eq_some {cfg : Config} {t : TimeValue} {k : Nat} {d : Digit} :
    (slotDigits cfg t)[k]? = some d ↔ ∃ src, cfg.slots[k]? = some src ∧ sourceDigit t src = d := by
  rw [slotDigits, List.getElem?_map, Option.map_eq_some_iff]

theorem slot_eq_const_of_gt {cfg : Config} {t : TimeValue} {k : Nat} {d : Digit} (h : (slotDigits cfg t)[k]? = some d)
    (hgt : 9 < d.toNat) : cfg.slots[k]? = some (.const d) := by
  obtain ⟨src, hslot, rfl⟩ := slotDigits_getElem?_eq_some.mp h
  have hconst : src = .const (sourceDigit t src) := (sourceDigit_cases t src).resolve_right (Nat.not_le.mpr hgt)
  rwa [← hconst]

theorem slotDigits_le_of_mapDecimal {cfg : Config} (t : TimeValue) (h : mapDecimal cfg = true) :
    ∀ d ∈ slotDigits cfg t, d.toNat ≤ 9 := by
  intro d hd
  obtain ⟨src, hmem, rfl⟩ := List.mem_map.mp hd
  exact sourceDigit_le t src (List.all_eq_true.mp h src hmem)

/-! ### The words a cycle sends to the converters and to the encoder (R103) -/

theorem mem_encoderWords {x : OpWord} {s : State} :
    x ∈ encoderWords s ↔ ∃ d, (slotDigits s.cfg s.tc)[s.muxIdx]? = some d ∧ x = ⟨.seg, d.toNat⟩ := by
  unfold encoderWords
  split
  · next hnone => simp [hnone]
  · next d hsome => simp [hsome]

theorem mem_cycleWords {x : OpWord} {inp : Inputs} {s : State} :
    x ∈ cycleWords inp s ↔
      x ∈ slotFreeWords inp s ∨ x ∈ encoderWords s ∨ x = ⟨.mux, (tickEvent true s.scanCnt).toNat⟩ := by
  rw [cycleWords_eq, List.mem_append, List.mem_append, List.mem_singleton]

/-- Of the words that do not depend on the selected slot, the encoder reads none, and a converter reads its own field of
the TimeValue. -/
theorem slotFreeWords_ports (inp : Inputs) (s : State) :
    ∀ x ∈ slotFreeWords inp s, x.port ≠ .seg ∧ ∀ f, x.port = .bcd f → x.bits = fieldOf f s.tc := by
  simp [slotFreeWords, fieldOf]

theorem converterWord_of_cycle {x : OpWord} {inp : Inputs} {s : State} {f : Converter} (hx : x ∈ cycleWords inp s)
    (hport : x.port = .bcd f) : x.bits = fieldOf f s.tc := by
  obtain hfree | hencoder | rfl := mem_cycleWords.mp hx
  · exact (slotFreeWords_ports inp s x hfree).2 f hport
  · obtain ⟨d, -, rfl⟩ := mem_encoderWords.mp hencoder
    cases hport
  · cases hport

/-- The encoder reads the digit of the selected slot. -/
theorem encoderWord_of_cycle {x : OpWord} {inp : Inputs} {s : State} (hx : x ∈ cycleWords inp s) (hport : x.port = .seg) :
    ∃ d, (slotDigits s.cfg s.tc)[s.muxIdx]? = some d ∧ x.bits = d.toNat := by
  obtain hfree | hencoder | rfl := mem_cycleWords.mp hx
  · exact absurd hport (slotFreeWords_ports inp s x hfree).1
  · obtain ⟨d, hslot, rfl⟩ := mem_encoderWords.mp hencoder
    exact ⟨d, hslot, rfl⟩
  · cases hport

/-- Settles O52: a converter's word is a field of the TimeValue, an encoder's word and a port's digit are what a slot's
source gives, and the digits of a field are its quotient and remainder by ten. -/
theorem digitsOfATimeStayInRange : Obligations.DigitsOfATimeStayInRange := by
  refine ⟨fun s inp => ⟨fun x hx f hport => ?_, fun x hx hport hgt => ?_, fun k d => slot_eq_const_of_gt,
      fun hmap => ⟨fun x hx hport => ?_, slotDigits_le_of_mapDecimal s.tc hmap⟩⟩,
    fun t => ⟨hours_tens_le t, bcdPair_ones_le _, hours_ones_le_of_tens t, fieldOf_tens_le .m t, bcdPair_ones_le _,
      fieldOf_tens_le .s t, bcdPair_ones_le _, fun f => ten_mul_tens_add_ones f t⟩⟩
  · rw [converterWord_of_cycle hx hport]
    exact (fieldOf_lt_sixty f s.tc).le.trans (by decide)
  · obtain ⟨d, hslot, hbits⟩ := encoderWord_of_cycle hx hport
    exact ⟨d, slot_eq_const_of_gt hslot (hbits ▸ hgt), hbits⟩
  · obtain ⟨d, hslot, hbits⟩ := encoderWord_of_cycle hx hport
    rw [hbits]
    exact slotDigits_le_of_mapDecimal s.tc hmap d (List.mem_of_getElem? hslot)

end Sys2Proof.Machine
end

section
/-! The family 44_display_mux.md: the multiplexer's two operations and its word in a cycle, what a blank and a shown slot
look like, and the order in which the scan visits the slots. -/

namespace Sys2Proof.Machine

/-! ### The multiplexer's operations (R75 to R77) -/

theorem exec_muxHold (s : State) : exec .muxHold s = muxStep s.muxIdx s := rfl

theorem exec_muxAdvance (s : State) : exec .muxAdvance s = muxStep ((s.muxIdx + 1) % s.cfg.n) s := rfl

/-- The multiplexer's step where a slot is selected, with the outputs of R75 and the next counter of R53 in full. -/
theorem muxStep_of_slot (next : Nat) {s : State} {d : Digit} (h : s.ports.digits[s.muxIdx]? = some d) :
    muxStep next s = .next { s with
      muxIdx := next
      scanCnt := if s.scanCnt = 0 then s.cfg.pS else s.scanCnt - 1
      out := { s.out with
        scanEv := decide (s.scanCnt = 0)
        frame := {
          blank := s.ports.editing.testBit s.muxIdx && !s.ports.blink
          selIdx := s.muxIdx
          selOnehot := 2 ^ s.muxIdx
          seg := if (s.ports.editing.testBit s.muxIdx && !s.ports.blink) = true then 0 else segmentPattern d
          dp := s.ports.dp.testBit s.muxIdx && !(s.ports.editing.testBit s.muxIdx && !s.ports.blink) } } } := by
  refine muxStep_eq_next.mpr ⟨d, h, ?_⟩
  rw [tickNext_enabled, tickEvent_enabled, muxFrame, slotBlank, oneHot]

/-- The multiplexer's one word in a cycle is the scan event (R75). -/
theorem displayWord_of_cycle {x : OpWord} {inp : Inputs} {s : State} (hx : x ∈ cycleWords inp s) (hport : x.port = .mux) :
    x.bits = (tickEvent true s.scanCnt).toNat := by
  have hfreePorts : ∀ y ∈ slotFreeWords inp s, y.port ≠ .mux := by simp [slotFreeWords]
  obtain hfree | hencoder | rfl := mem_cycleWords.mp hx
  · exact absurd hport (hfreePorts x hfree)
  · obtain ⟨d, -, rfl⟩ := mem_encoderWords.mp hencoder
    cases hport
  · rfl

/-- With `P_S = 0` the scan event is high in every cycle. -/
theorem State.Inv.scanEvent_of_preload_zero {s : State} (h : s.Inv) (hzero : s.cfg.pS = 0) :
    tickEvent true s.scanCnt = true := by
  have hle : s.scanCnt ≤ s.cfg.pS := h.tickCount_le .scan
  rw [tickEvent_enabled, decide_eq_true_iff]
  exact Nat.le_zero.mp (hzero ▸ hle)

/-- Settles O53: the shared step with the index as it is; the word of a cycle with `P_S = 0` is 1. -/
theorem muxHoldKeepsTheIndex : Obligations.MuxHoldKeepsTheIndex := by
  refine ⟨decode_displayWord false, fun s inp hinv hzero hmem => ?_, fun s d hslot => ?_⟩
  · have hword := displayWord_of_cycle hmem rfl
    rw [hinv.scanEvent_of_preload_zero hzero] at hword
    exact Nat.zero_ne_one hword
  · rw [exec_muxHold, muxStep_of_slot s.muxIdx hslot]

/-- Settles O54: the shared step with the index moved on. -/
theorem muxAdvanceMovesTheIndexOn : Obligations.MuxAdvanceMovesTheIndexOn := by
  refine ⟨decode_displayWord true, fun s d hslot => ?_⟩
  rw [exec_muxAdvance, muxStep_of_slot _ hslot]

/-! ### Blank and shown slots (R75, R79) -/

theorem muxFrame_of_blank {p : MuxPorts} {idx : Nat} (h : slotBlank p idx = true) (d : Digit) :
    (muxFrame p idx d).seg = 0 ∧ (muxFrame p idx d).dp = false := by
  simp [muxFrame, h]

theorem muxFrame_of_shown {p : MuxPorts} {idx : Nat} (h : slotBlank p idx = false) (d : Digit) :
    (muxFrame p idx d).seg = segmentPattern d ∧ (muxFrame p idx d).dp = p.dp.testBit idx := by
  simp [muxFrame, h]

/-- In a cycle of the block a slot is blank exactly when it is marked editing and the phase is in the low part. -/
theorem slotBlank_portsOf_iff (inp : Inputs) (s : State) (idx : Nat) :
    slotBlank (portsOf inp s) idx = true ↔ inp.editing.testBit idx = true ∧ s.ph < s.cfg.bl := by
  simp [slotBlank, portsOf, blinkLevel]

theorem afterCycle_frame (inp : Inputs) (s : State) (d : Digit) :
    (afterCycle inp s d).out.frame = muxFrame (portsOf inp s) s.muxIdx d := rfl

/-- Settles O57: the cycle's frame is the selected slot's, blank or shown by the slot's own blanking condition. -/
theorem editedSlotsBlankWhileTheBlinkIsLow : Obligations.EditedSlotsBlankWhileTheBlinkIsLow := by
  intro s inp src _ hsrc
  have hslot : (slotDigits s.cfg s.tc)[s.muxIdx]? = some (sourceDigit s.tc src) :=
    slotDigits_getElem?_eq_some.mpr ⟨src, hsrc, rfl⟩
  refine ⟨_, blockCycle_of_slot inp hslot, ?_⟩
  rw [← slotBlank_portsOf_iff, Bool.not_eq_true, afterCycle_frame]
  exact ⟨fun hblank => muxFrame_of_blank hblank _, fun hshown => muxFrame_of_shown hshown _⟩

/-! ### The scan law (R78) -/

/-- The slot a scan over `n` slots selects in cycle `k`, each slot staying for `preload + 1` cycles. -/
def scanSlot (preload n k : Nat) : Nat := k / (preload + 1) % n

theorem scanSlot_zero (preload n : Nat) : scanSlot preload n 0 = 0 := by
  rw [scanSlot, Nat.zero_div, Nat.zero_mod]

/-- The scan moves on by one slot, modulo their number, after the last cycle of a period and stays otherwise. -/
theorem scanSlot_succ (preload n k : Nat) :
    scanSlot preload n (k + 1) =
      if preload + 1 ∣ k + 1 then indexNext n (scanSlot preload n k) else scanSlot preload n k := by
  rw [scanSlot, scanSlot, indexNext, Nat.succ_div]
  split
  · rw [Nat.mod_add_mod]
  · rfl

/-- Bit `k` of a one-hot vector is the selected one's (R75). -/
theorem testBit_oneHot_iff (idx k : Nat) : (oneHot idx).testBit k = true ↔ k = idx := by
  rw [oneHot, Nat.testBit_two_pow, decide_eq_true_iff, eq_comm]

theorem afterCycle_scanCnt (inp : Inputs) (s : State) (d : Digit) :
    (afterCycle inp s d).scanCnt = tickNext s.cfg.pS true s.scanCnt := rfl

theorem afterCycle_muxIdx (inp : Inputs) (s : State) (d : Digit) :
    (afterCycle inp s d).muxIdx = if tickEvent true s.scanCnt then indexNext s.cfg.n s.muxIdx else s.muxIdx := rfl

/-- The display of a block `k` cycles after construction. -/
structure ScannedFor (cfg : Config) (k : Nat) (s : State) : Prop where
  cfg_eq : s.cfg = cfg
  scanCnt_eq : s.scanCnt = countAfter cfg.pS k
  muxIdx_eq : s.muxIdx = scanSlot cfg.pS cfg.n k

theorem scannedFor_init (cfg : Config) : ScannedFor cfg 0 (State.init cfg) where
  cfg_eq := rfl
  scanCnt_eq := (countAfter_zero cfg.pS).symm
  muxIdx_eq := (scanSlot_zero cfg.pS cfg.n).symm

theorem ScannedFor.cycle {cfg : Config} {k : Nat} {s : State} (h : ScannedFor cfg k s) (inp : Inputs) (d : Digit) :
    ScannedFor cfg (k + 1) (afterCycle inp s d) := by
  obtain ⟨rfl, hcnt, hidx⟩ := h
  refine ⟨afterCycle_cfg inp s d, ?_, ?_⟩
  · rw [afterCycle_scanCnt, hcnt, tickNext_countAfter]
  · simp only [afterCycle_muxIdx, hcnt, tickEvent_countAfter, decide_eq_true_iff, hidx, scanSlot_succ]

theorem runBlock_init_scan {cfg : Config} (h : cfg.Valid) (ins : List Inputs) :
    ∃ t, runBlock ins (State.init cfg) = .next t ∧ t.Inv ∧ ScannedFor cfg ins.length t := by
  refine runBlock_reaches (Q := fun past t => ScannedFor cfg past.length t) (init_inv h) (scannedFor_init cfg) ?_
  intro inp _ past t d hpast
  rw [List.length_append]
  exact hpast.cycle inp d

/-- Settles O56: the last cycle shows the slot that the cycles before it have selected. -/
theorem scanVisitsTheSlotsInTurn : Obligations.ScanVisitsTheSlotsInTurn := by
  intro cfg ins n hvalid hlen
  obtain rfl | ⟨past, inp, rfl⟩ := ins.eq_nil_or_concat'
  · cases hlen
  have hn : past.length = n := by simpa using hlen
  obtain ⟨t, hrun, hinv, hscanned⟩ := runBlock_init_scan hvalid past
  obtain ⟨d, hlast, _⟩ := runBlock_concat inp hinv hrun
  have hidx : t.muxIdx = n / (cfg.pS + 1) % cfg.n := hn ▸ hscanned.muxIdx_eq
  refine ⟨_, hlast, hidx, fun k => ?_⟩
  rw [← hidx]
  exact testBit_oneHot_iff t.muxIdx k

end Sys2Proof.Machine
end

section
/-! The family 45_timecore.md: what a command word's row decodes to, what the adjusts and the tick write unit by unit, both
as additions of seconds of the day, and the configurations construction refuses. -/

namespace Sys2Proof.Machine

/-! ### Command words (R41, R85) -/

/-- A word that matches a row of the opcode map decodes to the row's operation. -/
theorem decode_of_matches_row {r : CommandRow} (hr : r ∈ commandRows) (w : CommandWord) (h : w &&& r.mask = r.value) :
    decode ⟨.tc, w.toNat⟩ = .ok r.instr := by
  rw [decode_commandWord, (matches_row_iff r hr w).mp h]

theorem decodeCommand_of_noTick {w : CommandWord} (h : w.getLsbD 4 = false) :
    decodeCommand w = adjustOp (hoursDelta w) (minutesDelta w) := by
  rw [decodeCommand, h, if_neg Bool.false_ne_true]

theorem hoursDelta_of_inc {w : CommandWord} (h : w.getLsbD 3 = true) : hoursDelta w = .plus := if_pos h

theorem minutesDelta_of_inc {w : CommandWord} (h : w.getLsbD 1 = true) : minutesDelta w = .plus := if_pos h

/-- The mask without the `dec_h` bit keeps every other bit of a command word. -/
theorem decodeCommand_clear_decH {w : CommandWord} (h : w.getLsbD 3 = true) :
    decodeCommand (w &&& 0b11011) = decodeCommand w := by
  have hkept : (w &&& 0b11011).getLsbD 3 = true := by simp [h]
  rw [decodeCommand, decodeCommand, hoursDelta_of_inc h, hoursDelta_of_inc hkept]
  simp [minutesDelta]

/-- The mask without the `dec_m` bit keeps every other bit of a command word. -/
theorem decodeCommand_clear_decM {w : CommandWord} (h : w.getLsbD 1 = true) :
    decodeCommand (w &&& 0b11110) = decodeCommand w := by
  have hkept : (w &&& 0b11110).getLsbD 1 = true := by simp [h]
  rw [decodeCommand, decodeCommand, minutesDelta_of_inc h, minutesDelta_of_inc hkept]
  simp [hoursDelta]

/-! ### The adjust, unit by unit (R81, R86) -/

/-- The new value of a unit step is the sum modulo the unit, whatever the carry. -/
theorem unitStep_val {m : Nat} [NeZero m] (v : Fin m) (d : Delta) :
    ((unitStep v d).1.val : Int) = ((v.val : Int) + d.toInt) % (m : Int) := by
  have hlt : (unitStep v d).1.val < m := (unitStep v d).1.isLt
  rw [← unitStep_balance v d, Int.add_mul_emod_self_left, Int.emod_eq_of_lt] <;> omega

/-- The carry of a minutes step: up from 59, down from 0. -/
theorem minutesCarry_toInt (v : Fin 60) (d : Delta) :
    (unitStep v d).2.toInt =
      if d = .plus ∧ v.val = 59 then 1 else if d = .minus ∧ v.val = 0 then -1 else 0 := by
  rw [unitStep_carry]
  cases d with
  | plus => simp only [true_and, reduceCtorEq, false_and, or_false, if_false]; split <;> rfl
  | minus => simp only [true_and, reduceCtorEq, false_and, false_or, if_false]; split <;> rfl
  | zero => simp

theorem adjustTime_hours_val (hd md : Delta) (t : TimeValue) :
    ((adjustTime hd md t).hours.val : Int) =
      ((t.hours.val : Int) + hd.toInt +
        (if md = .plus ∧ t.minutes.val = 59 then 1 else if md = .minus ∧ t.minutes.val = 0 then -1 else 0)) % 24 := by
  rw [← minutesCarry_toInt, add_assoc]
  exact addMod_val t.hours _

theorem adjustTime_minutes_val (hd md : Delta) (t : TimeValue) :
    ((adjustTime hd md t).minutes.val : Int) = ((t.minutes.val : Int) + md.toInt) % 60 :=
  unitStep_val t.minutes md

theorem adjustTime_seconds (hd md : Delta) (t : TimeValue) : (adjustTime hd md t).seconds = t.seconds := rfl

theorem adjustTime_minutes_of_zero (hd : Delta) (t : TimeValue) : (adjustTime hd .zero t).minutes = t.minutes := by
  rw [adjustTime, unitStep_zero]

theorem adjustTime_zero_zero (t : TimeValue) : adjustTime .zero .zero t = t := by
  simp [adjustTime, unitStep_zero, addMod_zero]

/-- The requests reach the hours as a sum, so their order plays no part. -/
theorem requests_comm (hd md : Delta) (t : TimeValue) :
    requestHours hd (requestMinutes md t) = requestMinutes md (requestHours hd t) := by
  simp only [requestHours_eq, requestMinutes_eq, addMod_addMod]
  rw [add_comm]

/-- Settles O31: each unit of `ADJ`, and the two requests in the order of R86 and in the other. -/
theorem requestsOnDifferentUnitsBothApply : Obligations.RequestsOnDifferentUnitsBothApply := by
  intro hd md s
  have hrequests := adjustTime_eq_requests hd md s.tc
  exact ⟨_, exec_adjustOp hd md s, adjustTime_hours_val hd md s.tc, adjustTime_minutes_val hd md s.tc,
    adjustTime_seconds hd md s.tc, hrequests, hrequests.trans (requests_comm hd md s.tc)⟩

/-! ### Operations as seconds of the day (R99) -/

/-- An adjust adds its hours and minutes: the minutes carry pays for their roll over, and the hours' is a day. -/
theorem secondsOfDay_adjustTime (hd md : Delta) (t : TimeValue) :
    (secondsOfDay (adjustTime hd md t) : Int) =
      ((secondsOfDay t : Int) + 3600 * hd.toInt + 60 * md.toInt) % 86400 := by
  have hminutes := unitStep_balance t.minutes md
  have hhours := addMod_val t.hours (hd.toInt + (unitStep t.minutes md).2.toInt)
  simp only [secondsOfDay, adjustTime]
  omega

/-- A TimeValue is known by its seconds of the day. -/
theorem eq_of_secondsOfDay_eq {t u : TimeValue} (h : secondsOfDay t = secondsOfDay u) : t = u := by
  obtain ⟨th, tm, ts⟩ := t
  obtain ⟨uh, um, us⟩ := u
  simp only [secondsOfDay] at h
  rw [TimeValue.mk.injEq, Fin.ext_iff, Fin.ext_iff, Fin.ext_iff]
  omega

theorem exec_tick (s : State) : exec .tick s = .next (s.setTime (tickTime s.tc)) := rfl

/-- Settles O33: the tick and the adjust each add their seconds. -/
theorem operationsAddToTheSecondsOfTheDay : Obligations.OperationsAddToTheSecondsOfTheDay :=
  fun s => ⟨⟨_, exec_tick s, secondsOfDay_tickTime s.tc⟩,
    fun hd md => ⟨_, exec_adjustOp hd md s, secondsOfDay_adjustTime hd md s.tc⟩⟩

/-! ### Runs of ticks (R99 item 2) -/

theorem secondsOfDay_ticks (n : Nat) (t : TimeValue) :
    secondsOfDay (tickTime^[n] t) = (secondsOfDay t + n) % 86400 := by
  induction n with
  | zero => exact (Nat.mod_eq_of_lt (secondsOfDay_lt t)).symm
  | succ n ih => rw [Function.iterate_succ_apply', secondsOfDay_tickTime, ih, Nat.mod_add_mod, Nat.add_assoc]

theorem performAll_ticks (n : Nat) (s : State) :
    performAll (List.replicate n .tick) s = .next (s.setTime (tickTime^[n] s.tc)) := by
  induction n generalizing s with
  | zero => rfl
  | succ n ih => rw [List.replicate_succ, performAll, exec_tick, andThen_next, ih]; rfl

/-- Whole days of ticks lead back to the same time. -/
theorem ticks_of_wholeDays {n : Nat} (h : 86400 ∣ n) (t : TimeValue) : tickTime^[n] t = t := by
  obtain ⟨days, rfl⟩ := h
  apply eq_of_secondsOfDay_eq
  rw [secondsOfDay_ticks, Nat.add_mul_mod_self_left, Nat.mod_eq_of_lt (secondsOfDay_lt t)]

/-- Settles O34: the seconds of the day count the ticks from midnight, and a whole day of them leads back. -/
theorem ticksFromMidnightCountTheDay : Obligations.TicksFromMidnightCountTheDay := by
  intro s hmidnight
  refine ⟨fun n hn => ⟨_, performAll_ticks n s, ?_⟩, ?_⟩
  · have hstart : secondsOfDay s.tc = 0 := by rw [hmidnight]; rfl
    have hcount : secondsOfDay (tickTime^[n] s.tc) = n := by
      rw [secondsOfDay_ticks, hstart, Nat.zero_add, Nat.mod_eq_of_lt (by omega)]
    rw [secondsOfDay] at hcount
    omega
  · rw [performAll_ticks, ticks_of_wholeDays (dvd_refl 86400)]
    rfl

/-! ### Opposite adjusts (R99 item 4) -/

/-- An adjust by the opposite deltas leads back: the two add no second to the day. -/
theorem performAll_opposite {hd md hd' md' : Delta} (hhours : hd'.toInt = -hd.toInt) (hminutes : md'.toInt = -md.toInt)
    (s : State) : performAll [adjustOp hd md, adjustOp hd' md'] s = .next s := by
  have hback : adjustTime hd' md' (adjustTime hd md s.tc) = s.tc := by
    have hlt := secondsOfDay_lt s.tc
    have hfirst := secondsOfDay_adjustTime hd md s.tc
    have hsecond := secondsOfDay_adjustTime hd' md' (adjustTime hd md s.tc)
    apply eq_of_secondsOfDay_eq
    omega
  refine performAll_pair.mpr ⟨_, exec_adjustOp hd md s, ?_⟩
  rw [exec_adjustOp, State.setTime_tc, hback]
  rfl

/-- Settles O35: the four pairs are adjusts by opposite deltas. -/
theorem incrementAndDecrementUndoEachOther : Obligations.IncrementAndDecrementUndoEachOther := fun s =>
  ⟨performAll_opposite (hd := .plus) (md := .zero) (hd' := .minus) (md' := .zero) rfl rfl s,
    performAll_opposite (hd := .minus) (md := .zero) (hd' := .plus) (md' := .zero) rfl rfl s,
    performAll_opposite (hd := .zero) (md := .plus) (hd' := .zero) (md' := .minus) rfl rfl s,
    performAll_opposite (hd := .zero) (md := .minus) (hd' := .zero) (md' := .plus) rfl rfl s⟩

/-! ### A tick cycle of the block (R84, R123) -/

theorem afterCycle_secEv (inp : Inputs) (s : State) (d : Digit) :
    (afterCycle inp s d).out.secEv = tickEvent inp.tickEn s.secCnt := rfl

/-- In a cycle with a seconds event the time ticks, whatever the debouncers show. -/
theorem afterCycle_tc_of_tick {inp : Inputs} {s : State} (h : tickEvent inp.tickEn s.secCnt = true) (d : Digit) :
    (afterCycle inp s d).tc = tickTime s.tc := by
  rw [afterCycle_tc, commandTime_commandOf, if_pos h, tickTime_eq_advanceSeconds]

/-- Settles O36: the cycle's time is the tick's, which is one second of the day. -/
theorem pressesInATickCycleAreLost : Obligations.PressesInATickCycleAreLost := by
  intro s inp h hen hcnt
  obtain ⟨d, hd⟩ := h.selectedDigit
  have hevent : tickEvent inp.tickEn s.secCnt = true := by rw [hen, hcnt]; rfl
  refine ⟨_, blockCycle_of_slot inp hd, (afterCycle_secEv inp s d).trans hevent, ?_⟩
  rw [afterCycle_tc_of_tick hevent, secondsOfDay_tickTime]

/-! ### Refused configurations (R97, R109) -/

/-- The cause each code of a refused configuration stands for. -/
def ConfigError.Cause (r : ConfigRequest) : ConfigError → Prop
  | .tickPreload => (r.tickCycles : Int) - 1 < 0
  | .scanPreload => (r.scanCycles : Int) - 1 < 0
  | .digitsZero => r.slots.length = 0
  | .blinkPeriod => r.bl + r.bh = 0
  | .debounceWidth => r.w < 2
  | .seedRange => r.seedHours > 23 ∨ r.seedMinutes > 59 ∨ r.seedSeconds > 59
  | .advancePolicy => r.policy = .sequential

/-- The checks report exactly the codes whose cause is there. -/
theorem mem_configErrors {r : ConfigRequest} {e : ConfigError} : e ∈ configErrors r ↔ e.Cause r := by
  cases e <;> simp [configErrors, ConfigError.Cause, preloadOf]

/-- A refusal reports the code of a check that fails. -/
theorem cause_of_construct_eq_error {r : ConfigRequest} {e : ConfigError} (h : construct r = .error e) : e.Cause r := by
  unfold construct at h
  split at h
  · cases h
  · next e' es herrors =>
    cases h
    exact mem_configErrors.mp (herrors ▸ List.mem_cons_self)

theorem construct_refuses_iff {r : ConfigRequest} : (∃ e, construct r = .error e) ↔ ∃ e : ConfigError, e.Cause r := by
  refine ⟨fun ⟨e, he⟩ => ⟨e, cause_of_construct_eq_error he⟩, fun ⟨e, he⟩ => ?_⟩
  have hmem : e ∈ configErrors r := mem_configErrors.mpr he
  unfold construct
  split
  · next hnil => rw [hnil] at hmem; cases hmem
  · exact ⟨_, rfl⟩

/-- Settles O59: a refusal is a cause, and under the atomic policy the causes are the six checks of R109. -/
theorem constructionRefusesExactlyTheFailingConfigurations :
    Obligations.ConstructionRefusesExactlyTheFailingConfigurations := by
  intro r
  refine ⟨fun hpolicy => construct_refuses_iff.mpr ⟨.advancePolicy, hpolicy⟩, fun hpolicy => ?_,
    cause_of_construct_eq_error, cause_of_construct_eq_error, cause_of_construct_eq_error, cause_of_construct_eq_error,
    cause_of_construct_eq_error, cause_of_construct_eq_error, cause_of_construct_eq_error⟩
  rw [construct_refuses_iff]
  constructor
  · rintro ⟨e, he⟩
    cases e with
    | advancePolicy => cases hpolicy.symm.trans he
    | _ => simp only [ConfigError.Cause] at he; tauto
  · rintro (h | h | h | h | h | h)
    · exact ⟨.tickPreload, h⟩
    · exact ⟨.scanPreload, h⟩
    · exact ⟨.digitsZero, h⟩
    · exact ⟨.blinkPeriod, h⟩
    · exact ⟨.debounceWidth, h⟩
    · exact ⟨.seedRange, h⟩

/-! ### The ten operations (R87 to R96)

The hours of an adjust by what it asks of the minutes, and then each operation as its row of the opcode map and its
deltas. -/

theorem adjustTime_hours_of_zero (hd : Delta) (t : TimeValue) :
    ((adjustTime hd .zero t).hours.val : Int) = ((t.hours.val : Int) + hd.toInt) % 24 := by
  simp [adjustTime_hours_val]

theorem adjustTime_hours_of_plus (hd : Delta) (t : TimeValue) :
    ((adjustTime hd .plus t).hours.val : Int) =
      ((t.hours.val : Int) + hd.toInt + (if t.minutes.val = 59 then 1 else 0)) % 24 := by
  simp [adjustTime_hours_val]

theorem adjustTime_hours_of_minus (hd : Delta) (t : TimeValue) :
    ((adjustTime hd .minus t).hours.val : Int) =
      ((t.hours.val : Int) + hd.toInt - (if t.minutes.val = 0 then 1 else 0)) % 24 := by
  simp only [adjustTime_hours_val, reduceCtorEq, false_and, if_false, true_and]
  split <;> rfl

theorem adjustTime_minutes_of_plus (hd : Delta) (t : TimeValue) :
    (adjustTime hd .plus t).minutes.val = (t.minutes.val + 1) % 60 := by
  have hminutes := adjustTime_minutes_val hd .plus t
  rw [Delta.toInt_plus] at hminutes
  omega

theorem adjustTime_minutes_of_minus (hd : Delta) (t : TimeValue) :
    ((adjustTime hd .minus t).minutes.val : Int) = ((t.minutes.val : Int) - 1) % 60 :=
  adjustTime_minutes_val hd .minus t

/-- The seconds of a tick carry from 59. -/
theorem secondsCarry_up (v : Fin 60) : (unitStep v .plus).2 = if v.val = 59 then .plus else .zero := by
  simp [unitStep_carry]

/-- Above its seconds, a tick is an adjust by the carry of the seconds. -/
theorem tickTime_eq_adjustTime (t : TimeValue) :
    tickTime t =
      { adjustTime .zero (if t.seconds.val = 59 then .plus else .zero) t with
        seconds := (unitStep t.seconds .plus).1 } := by
  rw [← secondsCarry_up, tickTime, tickMinutes_eq, adjustTime, Delta.toInt_zero, zero_add]

theorem tickTime_seconds_val (t : TimeValue) : (tickTime t).seconds.val = (t.seconds.val + 1) % 60 := by
  have hseconds : ((tickTime t).seconds.val : Int) = ((t.seconds.val : Int) + 1) % 60 := unitStep_val t.seconds .plus
  omega

theorem tickTime_minutes_val (t : TimeValue) :
    (tickTime t).minutes.val = if t.seconds.val = 59 then (t.minutes.val + 1) % 60 else t.minutes.val := by
  rw [tickTime_eq_adjustTime]
  split
  · exact adjustTime_minutes_of_plus .zero t
  · exact congrArg Fin.val (adjustTime_minutes_of_zero .zero t)

theorem tickTime_hours_val (t : TimeValue) :
    (tickTime t).hours.val =
      if t.seconds.val = 59 ∧ t.minutes.val = 59 then (t.hours.val + 1) % 24 else t.hours.val := by
  rw [tickTime_eq_adjustTime]
  by_cases hseconds : t.seconds.val = 59
  · have hhours := adjustTime_hours_of_plus .zero t
    simp only [hseconds, if_true, true_and, Delta.toInt_zero] at hhours ⊢
    split at hhours <;> split <;> omega
  · have hhours := adjustTime_hours_of_zero .zero t
    simp only [hseconds, if_false, false_and, Delta.toInt_zero] at hhours ⊢
    omega

/-- Settles O21: the seconds step, and the adjust its carry makes of the minutes and the hours. -/
theorem tickAdvancesTheTime : Obligations.TickAdvancesTheTime :=
  ⟨decode_of_matches_row (r := ⟨.tick, 0b10000, 0b10000⟩) (by decide), fun s =>
    ⟨_, exec_tick s, tickTime_seconds_val s.tc, tickTime_minutes_val s.tc, tickTime_hours_val s.tc,
      tickTime_eq_advanceSeconds s.tc⟩⟩

/-- Settles O22: `ADJ(0, 0)` writes the time that is there. -/
theorem holdLeavesTheTimeUnchanged : Obligations.HoldLeavesTheTimeUnchanged := by
  refine ⟨decode_of_matches_row (r := ⟨.hold, 0b00000, 0b11111⟩) (by decide), fun s => ?_⟩
  refine (exec_adjustOp .zero .zero s).trans ?_
  rw [adjustTime_zero_zero]
  rfl

/-- Settles O23: `ADJ(+1, 0)`, whose minutes step carries nothing. -/
theorem incHAddsOneHour : Obligations.IncHAddsOneHour := by
  refine ⟨decode_of_matches_row (r := ⟨.incH, 0b01000, 0b11011⟩) (by decide), fun s =>
    ⟨_, exec_adjustOp .plus .zero s, ?_, adjustTime_minutes_of_zero .plus s.tc, adjustTime_seconds .plus .zero s.tc⟩⟩
  have hhours := adjustTime_hours_of_zero .plus s.tc
  rw [Delta.toInt_plus] at hhours
  omega

/-- Settles O24: `ADJ(−1, 0)`, whose minutes step borrows nothing. -/
theorem decHTakesOneHour : Obligations.DecHTakesOneHour :=
  ⟨decode_of_matches_row (r := ⟨.decH, 0b00100, 0b11111⟩) (by decide), fun s =>
    ⟨_, exec_adjustOp .minus .zero s, adjustTime_hours_of_zero .minus s.tc, adjustTime_minutes_of_zero .minus s.tc,
      adjustTime_seconds .minus .zero s.tc⟩⟩

/-- Settles O25: `ADJ(0, +1)`, where the carry alone reaches the hours. -/
theorem incMAddsOneMinute : Obligations.IncMAddsOneMinute := by
  refine ⟨decode_of_matches_row (r := ⟨.incM, 0b00010, 0b11110⟩) (by decide), fun s =>
    ⟨_, exec_adjustOp .zero .plus s, ?_, adjustTime_minutes_of_plus .zero s.tc, adjustTime_seconds .zero .plus s.tc⟩⟩
  have hhours := adjustTime_hours_of_plus .zero s.tc
  rw [Delta.toInt_zero] at hhours
  split at hhours <;> split <;> omega

/-- Settles O26: `ADJ(0, −1)`, where the borrow alone reaches the hours. -/
theorem decMTakesOneMinute : Obligations.DecMTakesOneMinute := by
  refine ⟨decode_of_matches_row (r := ⟨.decM, 0b00001, 0b11111⟩) (by decide), fun s =>
    ⟨_, exec_adjustOp .zero .minus s, ?_, adjustTime_minutes_of_minus .zero s.tc, adjustTime_seconds .zero .minus s.tc⟩⟩
  have hhours := adjustTime_hours_of_minus .zero s.tc
  rw [Delta.toInt_zero] at hhours
  split at hhours <;> split <;> omega

/-- Settles O27: `ADJ(+1, +1)`, whose carry adds to the hours request. -/
theorem incHIncMAddsBoth : Obligations.IncHIncMAddsBoth := by
  refine ⟨decode_of_matches_row (r := ⟨.incHIncM, 0b01010, 0b11010⟩) (by decide), fun s =>
    ⟨_, exec_adjustOp .plus .plus s, ?_, adjustTime_minutes_of_plus .plus s.tc, adjustTime_seconds .plus .plus s.tc⟩⟩
  have hhours := adjustTime_hours_of_plus .plus s.tc
  rw [Delta.toInt_plus] at hhours
  split at hhours <;> split <;> omega

/-- Settles O28: `ADJ(+1, −1)`, whose borrow cancels the hours request. -/
theorem incHDecMAddsAndTakes : Obligations.IncHDecMAddsAndTakes := by
  refine ⟨decode_of_matches_row (r := ⟨.incHDecM, 0b01001, 0b11011⟩) (by decide), fun s =>
    ⟨_, exec_adjustOp .plus .minus s, ?_, adjustTime_minutes_of_minus .plus s.tc, adjustTime_seconds .plus .minus s.tc⟩⟩
  have hhours := adjustTime_hours_of_minus .plus s.tc
  rw [Delta.toInt_plus] at hhours
  split at hhours <;> split <;> omega

/-- Settles O29: `ADJ(−1, +1)`, whose carry cancels the hours request. -/
theorem decHIncMTakesAndAdds : Obligations.DecHIncMTakesAndAdds := by
  refine ⟨decode_of_matches_row (r := ⟨.decHIncM, 0b00110, 0b11110⟩) (by decide), fun s =>
    ⟨_, exec_adjustOp .minus .plus s, ?_, adjustTime_minutes_of_plus .minus s.tc, adjustTime_seconds .minus .plus s.tc⟩⟩
  have hhours := adjustTime_hours_of_plus .minus s.tc
  rw [Delta.toInt_minus] at hhours
  split at hhours <;> split <;> omega

/-- Settles O30: `ADJ(−1, −1)`, whose borrow adds to the hours request. -/
theorem decHDecMTakesBoth : Obligations.DecHDecMTakesBoth := by
  refine ⟨decode_of_matches_row (r := ⟨.decHDecM, 0b00101, 0b11111⟩) (by decide), fun s =>
    ⟨_, exec_adjustOp .minus .minus s, ?_, adjustTime_minutes_of_minus .minus s.tc, adjustTime_seconds .minus .minus s.tc⟩⟩
  have hhours := adjustTime_hours_of_minus .minus s.tc
  rw [Delta.toInt_minus] at hhours
  split at hhours <;> split <;> omega

/-- Settles O32: the increment decides its unit's delta, so the other request's bit can be cleared. -/
theorem incrementWinsOverDecrement : Obligations.IncrementWinsOverDecrement := by
  intro w htick
  simp only [decode_commandWord]
  refine ⟨fun hinc _ => ⟨?_, minutesDelta w, ?_⟩, fun hinc _ => ⟨?_, hoursDelta w, ?_⟩⟩
  · rw [decodeCommand_clear_decH hinc]
  · rw [decodeCommand_of_noTick htick, hoursDelta_of_inc hinc]
  · rw [decodeCommand_clear_decM hinc]
  · rw [decodeCommand_of_noTick htick, minutesDelta_of_inc hinc]

end Sys2Proof.Machine
end

section
/-! The family 60_exceptions.md: which operations answer a next state, and that no cycle stops (R108). -/

namespace Sys2Proof.Machine

/-! ### Operations that answer -/

/-- Under the invariant the selected slot has a digit port. -/
theorem State.Inv.selectedPort {s : State} (h : s.Inv) : ∃ d, s.ports.digits[s.muxIdx]? = some d := by
  obtain ⟨_, _, _, _, _, _, _, _, hidx, hports⟩ := h
  exact ⟨_, List.getElem?_eq_getElem (hports ▸ hidx)⟩

theorem State.Inv.muxStep_answers {s : State} (h : s.Inv) (next : Nat) : ∃ t, muxStep next s = .next t := by
  obtain ⟨d, hd⟩ := h.selectedPort
  exact ⟨_, muxStep_of_slot next hd⟩

theorem execBcdSplit_answers_iff (f : Converter) (v : BcdValue) (s : State) :
    (∃ t, execBcdSplit f v s = .next t) ↔ v.inDomain = true := by
  simp only [execBcdSplit_eq_next, exists_and_left, exists_eq, and_true]

/-- Settles O15: the multiplexer answers because a slot is selected, BCD_SPLIT exactly inside its domain, and every
other operation is well formed and answers from any state. -/
theorem operationsAreTotalButBcdOutsideItsDomain : Obligations.OperationsAreTotalButBcdOutsideItsDomain := by
  intro i s h
  cases i with
  | bcdSplit f v => exact execBcdSplit_answers_iff f v s
  | muxHold | muxAdvance => exact iff_of_true (h.muxStep_answers _) rfl
  | tgDisabled _ | tgEnabled _ | pgStep | debIn0 _ | debIn1 _ | btnStep _ _
  | tick | hold | incH | decH | incM | decM | incHIncM | incHDecM | decHIncM | decHDecM
  | segEncode0 | segEncode1 | segEncode2 | segEncode3 | segEncode4 | segEncode5 | segEncode6 | segEncode7
  | segEncode8 | segEncode9 | segEncodeA | segEncodeB | segEncodeC | segEncodeD | segEncodeE | segEncodeF =>
    exact iff_of_true ⟨_, rfl⟩ rfl

/-! ### Cycles that answer -/

theorem Drive.sound_alone_iff (x : OpWord) : (Drive.alone x).sound = true ↔ ∃ i, decode x = .ok i := by
  rw [Drive.sound]
  cases decode x with
  | ok i => exact iff_of_true rfl ⟨i, rfl⟩
  | error e => simp

/-- A word that decodes does so to a well-formed operation, which answers. -/
theorem State.Inv.runWord_answers {s : State} (h : s.Inv) {x : OpWord} {i : Instr} (hdecode : decode x = .ok i) :
    ∃ t, runWord x s = .next t := by
  obtain ⟨hwf, _⟩ := decodedOperationsMatchTheWordRead x i hdecode
  rw [runWord_of_decode_ok hdecode]
  exact (operationsAreTotalButBcdOutsideItsDomain i s h).mpr hwf

theorem State.Inv.blockCycle_answers {s : State} (h : s.Inv) (inp : Inputs) : ∃ t, blockCycle inp s = .next t := by
  obtain ⟨d, hd⟩ := h.selectedDigit
  exact ⟨_, blockCycle_of_slot inp hd⟩

theorem State.Inv.runDrive_answers {s : State} (h : s.Inv) {d : Drive} (hsound : d.sound = true) :
    ∃ t, runDrive d s = .next t := by
  cases d with
  | alone x =>
    obtain ⟨i, hdecode⟩ := (Drive.sound_alone_iff x).mp hsound
    exact h.runWord_answers hdecode
  | block inp => exact h.blockCycle_answers inp

/-- Settles O16: taking an entry or a draw off keeps the invariant, and a cycle under a free draw or a sound entry
answers. -/
theorem noCycleEverStops : Obligations.NoCycleEverStops := by
  intro s h hsound
  cases hstim : s.stim with
  | nil =>
    have hdrawn : { s with draws := s.draws + 1 }.Inv := h
    rw [step_of_free hstim]
    exact hdrawn.blockCycle_answers _
  | cons d rest =>
    have hfetched : { s with stim := rest }.Inv := h
    have hhead : d ∈ s.stim.head? := by simp [hstim]
    rw [step_of_lined hstim]
    exact hfetched.runDrive_answers (hsound d hhead)

end Sys2Proof.Machine
end

section
/-! The family 70_reset_and_hazards.md: the outputs of the first cycle from construction (R120), a disabled tick as a
restart of the second (R126), and runs of the block that never end (R130). -/

namespace Sys2Proof.Machine

/-! ### The first cycle (R120) -/

theorem tickEvent_eq_and_decide (en : Bool) (cnt : Nat) : tickEvent en cnt = (en && decide (cnt = 0)) := rfl

theorem afterCycle_scanEv (inp : Inputs) (s : State) (d : Digit) :
    (afterCycle inp s d).out.scanEv = tickEvent true s.scanCnt := rfl

/-- With the phase at 0 the blink is high only if it has no low part. -/
theorem blinkLevel_phase_zero (bl : Nat) : blinkLevel bl 0 = decide (bl = 0) :=
  decide_eq_decide.mpr Nat.le_zero

/-- A button as construction leaves it shows neither an edge nor a pulse. -/
theorem buttonOut_reset : buttonOut ButtonRegs.reset = ⟨false, false⟩ := rfl

/-- With idle buttons the command word carries the seconds event alone. -/
theorem commandOf_of_idle {s : State} (hidle : ∀ b, s.button b = ButtonRegs.reset) (inp : Inputs) :
    commandOf inp s = if tickEvent inp.tickEn s.secCnt = true then 0b10000 else 0b00000 := by
  have hih : s.btnIh = ButtonRegs.reset := hidle .ih
  have hdh : s.btnDh = ButtonRegs.reset := hidle .dh
  have him : s.btnIm = ButtonRegs.reset := hidle .im
  have hdm : s.btnDm = ButtonRegs.reset := hidle .dm
  rw [commandOf, hih, hdh, him, hdm]
  cases tickEvent inp.tickEn s.secCnt with
  | true => rfl
  | false => rfl

/-- Settles O60: each output of the cycle is its component's, of the register values construction gives. -/
theorem outputsInTheFirstCycle : Obligations.OutputsInTheFirstCycle := by
  intro cfg inp hvalid
  obtain ⟨d, hd⟩ := (init_inv hvalid).selectedDigit
  have hbuttons (b : Button) : (afterCycle inp (State.init cfg) d).out.button b = ⟨false, false⟩ := by
    rw [afterCycle_outButton, init_button]
    exact buttonOut_reset
  have hcommand : commandOf inp (State.init cfg) = if inp.tickEn = true ∧ cfg.pT = 0 then 0b10000 else 0b00000 := by
    simp only [commandOf_of_idle (init_button cfg), tickEvent_eq_and_decide, Bool.and_eq_true, decide_eq_true_iff]
    rfl
  exact ⟨_, blockCycle_of_slot inp hd, afterCycle_secEv inp _ d, afterCycle_scanEv inp _ d,
    (afterCycle_blink inp _ d).trans (blinkLevel_phase_zero cfg.bl), hbuttons, rfl, rfl, hcommand⟩

/-! ### Enabled cycles from a reloaded second (R54, R126) -/

/-- Enabled cycles of the block take the seconds counter from its preload along the periods of `countAfter`. -/
theorem runBlock_secCnt_of_enabled {s : State} (h : s.Inv) (hstart : s.secCnt = s.cfg.pT) {ins : List Inputs}
    (hen : ∀ inp ∈ ins, inp.tickEn = true) :
    ∃ t, runBlock ins s = .next t ∧ t.Inv ∧ t.cfg = s.cfg ∧ t.secCnt = countAfter s.cfg.pT ins.length := by
  refine runBlock_reaches (Q := fun past t => t.cfg = s.cfg ∧ t.secCnt = countAfter s.cfg.pT past.length)
    h ⟨rfl, hstart.trans (countAfter_zero _).symm⟩ ?_
  rintro inp hmem past t d ⟨hcfg, hcnt⟩
  refine ⟨(afterCycle_cfg inp t d).trans hcfg, ?_⟩
  rw [afterCycle_secCnt, hen inp hmem, hcfg, hcnt, tickNext_countAfter, List.length_append, List.length_singleton]

/-- The last of the enabled cycles shows the seconds event exactly if it ends a period. -/
theorem runBlock_secEv_of_enabled {s : State} (h : s.Inv) (hstart : s.secCnt = s.cfg.pT) {past : List Inputs}
    {inp : Inputs} (hen : ∀ x ∈ past ++ [inp], x.tickEn = true) :
    ∃ t, runBlock (past ++ [inp]) s = .next t ∧ (t.out.secEv = true ↔ s.cfg.pT + 1 ∣ past.length + 1) := by
  obtain ⟨t, hrun, hinv, _, hcnt⟩ :=
    runBlock_secCnt_of_enabled h hstart fun x hx => hen x (List.mem_append_left [inp] hx)
  obtain ⟨d, hlast, _⟩ := runBlock_concat inp hinv hrun
  refine ⟨_, hlast, ?_⟩
  rw [afterCycle_secEv, hen inp List.mem_concat_self, hcnt, tickEvent_countAfter, decide_eq_true_iff]

/-- Settles O43: the disabled cycle reloads the counter, and from there the events end the periods. -/
theorem disablingTheTickRestartsTheSecond : Obligations.DisablingTheTickRestartsTheSecond := by
  intro s off ins n h hoff hlen hen
  obtain rfl | ⟨past, inp, rfl⟩ := ins.eq_nil_or_concat'
  · cases hlen
  have hn : past.length = n := by simpa using hlen
  obtain ⟨d, hd⟩ := h.selectedDigit
  have hcycle : blockCycle off s = .next (afterCycle off s d) := blockCycle_of_slot off hd
  have hreloaded : (afterCycle off s d).secCnt = (afterCycle off s d).cfg.pT := by
    rw [afterCycle_secCnt, hoff, tickNext_disabled, afterCycle_cfg]
  obtain ⟨t, hrun, hevent⟩ := runBlock_secEv_of_enabled (blockCycle_inv h hcycle) hreloaded hen
  refine ⟨t, ?_, ?_⟩
  · rw [runBlock_cons_eq, hcycle, andThen_next, hrun]
  · rw [hevent, afterCycle_cfg, hn, Nat.dvd_iff_mod_eq_zero]

/-! ### Runs that go on (R130) -/

/-- Settles O17: every cycle answers, and leaves the parameters and the environment of the start as they were. -/
theorem runsOfTheBlockNeverEnd : Obligations.RunsOfTheBlockNeverEnd := by
  intro s ins h
  have hcycle (inp : Inputs) (t : State) (d : Digit) : SameEnvironment t (afterCycle inp t d) := ⟨rfl, rfl, rfl⟩
  exact runBlock_reaches (Q := fun _ t => SameEnvironment s t) h (.refl s)
    fun inp _ _ t d hpast => hpast.trans (hcycle inp t d)

end Sys2Proof.Machine
end
